-- ==== Sys2Proof/Word.lean ====
section
/-! DEFINITION. The word types of the model (00_scope.md rules R11, R12). -/
namespace Sys2Proof

/-- A register word. XLEN is 32 or 64; an RV32 value is held zero-extended (log entry 6). -/
abbrev Word := BitVec 64

/-- One byte of the host's memory. -/
abbrev Byte := BitVec 8

/-- The raw 32-bit instruction word of a transaction (00_scope.md rule R3, 30_encoding.md rule R69). -/
abbrev InstWord := BitVec 32

/-- The index of a general register, a 5-bit field (10_state.md rule R20). -/
abbrev XReg := Fin 32

/-- The index of a floating-point register, a 5-bit field (10_state.md rule R24). -/
abbrev FReg := Fin 32

end Sys2Proof
end

