-- ==== Sys2Proof/Syntax.lean ====
section
/-! DEFINITION. The instructions of the block: one constructor per row of opcode_table.json, with the operand fields
of its format (30_encoding.md rules R70 to R74). -/
namespace Sys2Proof

/-- The rounding-mode field inst[14:12] of the rows marked "rm" (30_encoding.md rule R81). The two reserved values are
kept: their word still matches its row (rule R78) and its legality is judged when it runs. -/
inductive Rm where
  | rne
  | rtz
  | rdn
  | rup
  | rmm
  | reserved5
  | reserved6
  | dyn
deriving DecidableEq, Repr

/-- The 75 instructions (00_scope.md rule R9). Register operands are GPR or FPR indexes as 30_encoding.md rule R78's
column "regs" says. -/
inductive Instr where
  /-- MUL (R102). -/
  | mul (rd rs1 rs2 : XReg)
  /-- MULH (R103). -/
  | mulh (rd rs1 rs2 : XReg)
  /-- MULHSU (R104). -/
  | mulhsu (rd rs1 rs2 : XReg)
  /-- MULHU (R105). -/
  | mulhu (rd rs1 rs2 : XReg)
  /-- DIV (R120). -/
  | div (rd rs1 rs2 : XReg)
  /-- DIVU (R121). -/
  | divu (rd rs1 rs2 : XReg)
  /-- REM (R122). -/
  | rem (rd rs1 rs2 : XReg)
  /-- REMU (R123). -/
  | remu (rd rs1 rs2 : XReg)
  /-- MULW (R106). -/
  | mulw (rd rs1 rs2 : XReg)
  /-- DIVW (R124). -/
  | divw (rd rs1 rs2 : XReg)
  /-- DIVUW (R125). -/
  | divuw (rd rs1 rs2 : XReg)
  /-- REMW (R126). -/
  | remw (rd rs1 rs2 : XReg)
  /-- REMUW (R127). -/
  | remuw (rd rs1 rs2 : XReg)
  /-- FLW (R280). -/
  | flw (rd : FReg) (rs1 : XReg) (imm : BitVec 12)
  /-- FLD (R281). -/
  | fld (rd : FReg) (rs1 : XReg) (imm : BitVec 12)
  /-- FSW (R282). -/
  | fsw (rs2 : FReg) (rs1 : XReg) (imm : BitVec 12)
  /-- FSD (R283). -/
  | fsd (rs2 : FReg) (rs1 : XReg) (imm : BitVec 12)
  /-- FMADD.S (R195). -/
  | fmaddS (rd rs1 rs2 rs3 : FReg) (rm : Rm)
  /-- FMSUB.S (R196). -/
  | fmsubS (rd rs1 rs2 rs3 : FReg) (rm : Rm)
  /-- FNMSUB.S (R197). -/
  | fnmsubS (rd rs1 rs2 rs3 : FReg) (rm : Rm)
  /-- FNMADD.S (R198). -/
  | fnmaddS (rd rs1 rs2 rs3 : FReg) (rm : Rm)
  /-- FMADD.D (R199). -/
  | fmaddD (rd rs1 rs2 rs3 : FReg) (rm : Rm)
  /-- FMSUB.D (R200). -/
  | fmsubD (rd rs1 rs2 rs3 : FReg) (rm : Rm)
  /-- FNMSUB.D (R201). -/
  | fnmsubD (rd rs1 rs2 rs3 : FReg) (rm : Rm)
  /-- FNMADD.D (R202). -/
  | fnmaddD (rd rs1 rs2 rs3 : FReg) (rm : Rm)
  /-- FADD.S (R185). -/
  | faddS (rd rs1 rs2 : FReg) (rm : Rm)
  /-- FSUB.S (R186). -/
  | fsubS (rd rs1 rs2 : FReg) (rm : Rm)
  /-- FMUL.S (R187). -/
  | fmulS (rd rs1 rs2 : FReg) (rm : Rm)
  /-- FDIV.S (R188). -/
  | fdivS (rd rs1 rs2 : FReg) (rm : Rm)
  /-- FSQRT.S (R189). -/
  | fsqrtS (rd rs1 : FReg) (rm : Rm)
  /-- FADD.D (R190). -/
  | faddD (rd rs1 rs2 : FReg) (rm : Rm)
  /-- FSUB.D (R191). -/
  | fsubD (rd rs1 rs2 : FReg) (rm : Rm)
  /-- FMUL.D (R192). -/
  | fmulD (rd rs1 rs2 : FReg) (rm : Rm)
  /-- FDIV.D (R193). -/
  | fdivD (rd rs1 rs2 : FReg) (rm : Rm)
  /-- FSQRT.D (R194). -/
  | fsqrtD (rd rs1 : FReg) (rm : Rm)
  /-- FCVT.W.S (R213). -/
  | fcvtWS (rd : XReg) (rs1 : FReg) (rm : Rm)
  /-- FCVT.WU.S (R214). -/
  | fcvtWUS (rd : XReg) (rs1 : FReg) (rm : Rm)
  /-- FCVT.L.S (R215). -/
  | fcvtLS (rd : XReg) (rs1 : FReg) (rm : Rm)
  /-- FCVT.LU.S (R216). -/
  | fcvtLUS (rd : XReg) (rs1 : FReg) (rm : Rm)
  /-- FCVT.S.W (R217). -/
  | fcvtSW (rd : FReg) (rs1 : XReg) (rm : Rm)
  /-- FCVT.S.WU (R218). -/
  | fcvtSWU (rd : FReg) (rs1 : XReg) (rm : Rm)
  /-- FCVT.S.L (R219). -/
  | fcvtSL (rd : FReg) (rs1 : XReg) (rm : Rm)
  /-- FCVT.S.LU (R220). -/
  | fcvtSLU (rd : FReg) (rs1 : XReg) (rm : Rm)
  /-- FCVT.W.D (R221). -/
  | fcvtWD (rd : XReg) (rs1 : FReg) (rm : Rm)
  /-- FCVT.WU.D (R222). -/
  | fcvtWUD (rd : XReg) (rs1 : FReg) (rm : Rm)
  /-- FCVT.L.D (R223). -/
  | fcvtLD (rd : XReg) (rs1 : FReg) (rm : Rm)
  /-- FCVT.LU.D (R224). -/
  | fcvtLUD (rd : XReg) (rs1 : FReg) (rm : Rm)
  /-- FCVT.D.W (R225). -/
  | fcvtDW (rd : FReg) (rs1 : XReg) (rm : Rm)
  /-- FCVT.D.WU (R226). -/
  | fcvtDWU (rd : FReg) (rs1 : XReg) (rm : Rm)
  /-- FCVT.D.L (R227). -/
  | fcvtDL (rd : FReg) (rs1 : XReg) (rm : Rm)
  /-- FCVT.D.LU (R228). -/
  | fcvtDLU (rd : FReg) (rs1 : XReg) (rm : Rm)
  /-- FCVT.S.D (R229). -/
  | fcvtSD (rd rs1 : FReg) (rm : Rm)
  /-- FCVT.D.S (R230). -/
  | fcvtDS (rd rs1 : FReg) (rm : Rm)
  /-- FMIN.S (R241). -/
  | fminS (rd rs1 rs2 : FReg)
  /-- FMAX.S (R242). -/
  | fmaxS (rd rs1 rs2 : FReg)
  /-- FMIN.D (R243). -/
  | fminD (rd rs1 rs2 : FReg)
  /-- FMAX.D (R244). -/
  | fmaxD (rd rs1 rs2 : FReg)
  /-- FEQ.S (R246). -/
  | feqS (rd : XReg) (rs1 rs2 : FReg)
  /-- FLT.S (R247). -/
  | fltS (rd : XReg) (rs1 rs2 : FReg)
  /-- FLE.S (R248). -/
  | fleS (rd : XReg) (rs1 rs2 : FReg)
  /-- FEQ.D (R249). -/
  | feqD (rd : XReg) (rs1 rs2 : FReg)
  /-- FLT.D (R250). -/
  | fltD (rd : XReg) (rs1 rs2 : FReg)
  /-- FLE.D (R251). -/
  | fleD (rd : XReg) (rs1 rs2 : FReg)
  /-- FCLASS.S (R253). -/
  | fclassS (rd : XReg) (rs1 : FReg)
  /-- FCLASS.D (R254). -/
  | fclassD (rd : XReg) (rs1 : FReg)
  /-- FSGNJ.S (R261). -/
  | fsgnjS (rd rs1 rs2 : FReg)
  /-- FSGNJN.S (R262). -/
  | fsgnjnS (rd rs1 rs2 : FReg)
  /-- FSGNJX.S (R263). -/
  | fsgnjxS (rd rs1 rs2 : FReg)
  /-- FSGNJ.D (R264). -/
  | fsgnjD (rd rs1 rs2 : FReg)
  /-- FSGNJN.D (R265). -/
  | fsgnjnD (rd rs1 rs2 : FReg)
  /-- FSGNJX.D (R266). -/
  | fsgnjxD (rd rs1 rs2 : FReg)
  /-- FMV.X.W (R267). -/
  | fmvXW (rd : XReg) (rs1 : FReg)
  /-- FMV.W.X (R268). -/
  | fmvWX (rd : FReg) (rs1 : XReg)
  /-- FMV.X.D (R269). -/
  | fmvXD (rd : XReg) (rs1 : FReg)
  /-- FMV.D.X (R270). -/
  | fmvDX (rd : FReg) (rs1 : XReg)
deriving DecidableEq, Repr

/-- The rounding-mode field of an instruction whose row has one (30_encoding.md rules R78, R79). -/
def Instr.rmField : Instr → Option Rm
  | .mul _ _ _ => none
  | .mulh _ _ _ => none
  | .mulhsu _ _ _ => none
  | .mulhu _ _ _ => none
  | .div _ _ _ => none
  | .divu _ _ _ => none
  | .rem _ _ _ => none
  | .remu _ _ _ => none
  | .mulw _ _ _ => none
  | .divw _ _ _ => none
  | .divuw _ _ _ => none
  | .remw _ _ _ => none
  | .remuw _ _ _ => none
  | .flw _ _ _ => none
  | .fld _ _ _ => none
  | .fsw _ _ _ => none
  | .fsd _ _ _ => none
  | .fmaddS _ _ _ _ rm => some rm
  | .fmsubS _ _ _ _ rm => some rm
  | .fnmsubS _ _ _ _ rm => some rm
  | .fnmaddS _ _ _ _ rm => some rm
  | .fmaddD _ _ _ _ rm => some rm
  | .fmsubD _ _ _ _ rm => some rm
  | .fnmsubD _ _ _ _ rm => some rm
  | .fnmaddD _ _ _ _ rm => some rm
  | .faddS _ _ _ rm => some rm
  | .fsubS _ _ _ rm => some rm
  | .fmulS _ _ _ rm => some rm
  | .fdivS _ _ _ rm => some rm
  | .fsqrtS _ _ rm => some rm
  | .faddD _ _ _ rm => some rm
  | .fsubD _ _ _ rm => some rm
  | .fmulD _ _ _ rm => some rm
  | .fdivD _ _ _ rm => some rm
  | .fsqrtD _ _ rm => some rm
  | .fcvtWS _ _ rm => some rm
  | .fcvtWUS _ _ rm => some rm
  | .fcvtLS _ _ rm => some rm
  | .fcvtLUS _ _ rm => some rm
  | .fcvtSW _ _ rm => some rm
  | .fcvtSWU _ _ rm => some rm
  | .fcvtSL _ _ rm => some rm
  | .fcvtSLU _ _ rm => some rm
  | .fcvtWD _ _ rm => some rm
  | .fcvtWUD _ _ rm => some rm
  | .fcvtLD _ _ rm => some rm
  | .fcvtLUD _ _ rm => some rm
  | .fcvtDW _ _ rm => some rm
  | .fcvtDWU _ _ rm => some rm
  | .fcvtDL _ _ rm => some rm
  | .fcvtDLU _ _ rm => some rm
  | .fcvtSD _ _ rm => some rm
  | .fcvtDS _ _ rm => some rm
  | .fminS _ _ _ => none
  | .fmaxS _ _ _ => none
  | .fminD _ _ _ => none
  | .fmaxD _ _ _ => none
  | .feqS _ _ _ => none
  | .fltS _ _ _ => none
  | .fleS _ _ _ => none
  | .feqD _ _ _ => none
  | .fltD _ _ _ => none
  | .fleD _ _ _ => none
  | .fclassS _ _ => none
  | .fclassD _ _ => none
  | .fsgnjS _ _ _ => none
  | .fsgnjnS _ _ _ => none
  | .fsgnjxS _ _ _ => none
  | .fsgnjD _ _ _ => none
  | .fsgnjnD _ _ _ => none
  | .fsgnjxD _ _ _ => none
  | .fmvXW _ _ => none
  | .fmvWX _ _ => none
  | .fmvXD _ _ => none
  | .fmvDX _ _ => none

end Sys2Proof
end

