-- ==== Sys2Proof/WellFormed.lean ====
section
/-! DEFINITION. The check on an instruction as syntax: register and immediate fields are of their exact widths by type,
so the one field that may hold a reserved value is the rounding mode. -/
namespace Sys2Proof

/-- The field names a static mode or DYN; 101 and 110 are reserved (30_encoding.md rule R81). -/
def Rm.wellFormed : Rm → Bool
  | .rne | .rtz | .rdn | .rup | .rmm | .dyn => true
  | .reserved5 | .reserved6 => false

/-- No field of the instruction holds a reserved value. -/
def Instr.wellFormed (i : Instr) : Bool :=
  match i.rmField with
  | some rm => rm.wellFormed
  | none => true

end Sys2Proof
end

