-- ==== Sys2Proof/Decode.lean ====
section
/-! DEFINITION. The decoder, total on every 32-bit word, written from the field tables of 30_encoding.md rules R75 to R80,
and the encoder written from the same tables. The field values are those the spec supplies (log entry 12). -/
namespace Sys2Proof

/-- Why a word is no instruction of the block (30_encoding.md rules R82 to R84). Each reason is named after the field that
matches no row. -/
inductive Reject where
  /-- inst[6:0] is no opcode of the block (rules R75, R83): another family of the hart may take the word. -/
  | opcode
  /-- The funct7 under OP, OP_32 or OP-FP is in no row (rules R76, R84). -/
  | funct7
  /-- The funct3 is in no row (rules R76, R77, R84). -/
  | funct3
  /-- The fixed rs2 of the row is not matched (rules R80, R84). -/
  | rs2
  /-- funct2 of a fused multiply-add is 10 or 11 (rules R71, R84). -/
  | funct2
deriving DecidableEq, Repr

/-! ### Fields (30_encoding.md rules R70 to R73) -/

/-- inst[6:0]. -/
def opcodeField (w : InstWord) : BitVec 7 := w.extractLsb' 0 7

/-- inst[11:7]. -/
def rdField (w : InstWord) : BitVec 5 := w.extractLsb' 7 5

/-- inst[14:12]: funct3 or rm. -/
def funct3Field (w : InstWord) : BitVec 3 := w.extractLsb' 12 3

/-- inst[19:15]. -/
def rs1Field (w : InstWord) : BitVec 5 := w.extractLsb' 15 5

/-- inst[24:20]. -/
def rs2Field (w : InstWord) : BitVec 5 := w.extractLsb' 20 5

/-- inst[31:25]. -/
def funct7Field (w : InstWord) : BitVec 7 := w.extractLsb' 25 7

/-- inst[26:25], the format of the R4 layout. -/
def funct2Field (w : InstWord) : BitVec 2 := w.extractLsb' 25 2

/-- inst[31:27]. -/
def rs3Field (w : InstWord) : BitVec 5 := w.extractLsb' 27 5

/-- imm12 of the I layout: inst[31:20]. -/
def immIField (w : InstWord) : BitVec 12 := w.extractLsb' 20 12

/-- imm12 of the S layout: inst[31:25] above inst[11:7]. -/
def immSField (w : InstWord) : BitVec 12 := w.extractLsb' 25 7 ++ w.extractLsb' 7 5

/-- A 5-bit field as a register index. -/
def regOf (b : BitVec 5) : Fin 32 := b.toFin

/-- A register index as its 5-bit field. -/
def regBits (r : Fin 32) : BitVec 5 := BitVec.ofFin r

/-- The rounding-mode field (rule R81). -/
def rmOf (b : BitVec 3) : Rm :=
  match b.toNat with
  | 0 => .rne
  | 1 => .rtz
  | 2 => .rdn
  | 3 => .rup
  | 4 => .rmm
  | 5 => .reserved5
  | 6 => .reserved6
  | _ => .dyn

/-- The code of a rounding-mode field (rule R81). -/
def rmBits : Rm → BitVec 3
  | .rne => 0b000
  | .rtz => 0b001
  | .rdn => 0b010
  | .rup => 0b011
  | .rmm => 0b100
  | .reserved5 => 0b101
  | .reserved6 => 0b110
  | .dyn => 0b111

def rdOf (w : InstWord) : Fin 32 := regOf (rdField w)
def rs1Of (w : InstWord) : Fin 32 := regOf (rs1Field w)
def rs2Of (w : InstWord) : Fin 32 := regOf (rs2Field w)
def rs3Of (w : InstWord) : Fin 32 := regOf (rs3Field w)
def rmOfWord (w : InstWord) : Rm := rmOf (funct3Field w)

/-! ### The decoder -/

/-- OP with funct7 = 0x01 (rule R76, middle column). -/
def decodeOp (w : InstWord) : Except Reject Instr :=
  match (funct3Field w).toNat with
  | 0b000 => .ok (.mul (rdOf w) (rs1Of w) (rs2Of w))
  | 0b001 => .ok (.mulh (rdOf w) (rs1Of w) (rs2Of w))
  | 0b010 => .ok (.mulhsu (rdOf w) (rs1Of w) (rs2Of w))
  | 0b011 => .ok (.mulhu (rdOf w) (rs1Of w) (rs2Of w))
  | 0b100 => .ok (.div (rdOf w) (rs1Of w) (rs2Of w))
  | 0b101 => .ok (.divu (rdOf w) (rs1Of w) (rs2Of w))
  | 0b110 => .ok (.rem (rdOf w) (rs1Of w) (rs2Of w))
  | 0b111 => .ok (.remu (rdOf w) (rs1Of w) (rs2Of w))
  | _ => .error .funct3

/-- OP_32 with funct7 = 0x01 (rule R76, right column). -/
def decodeOp32 (w : InstWord) : Except Reject Instr :=
  match (funct3Field w).toNat with
  | 0b000 => .ok (.mulw (rdOf w) (rs1Of w) (rs2Of w))
  | 0b100 => .ok (.divw (rdOf w) (rs1Of w) (rs2Of w))
  | 0b101 => .ok (.divuw (rdOf w) (rs1Of w) (rs2Of w))
  | 0b110 => .ok (.remw (rdOf w) (rs1Of w) (rs2Of w))
  | 0b111 => .ok (.remuw (rdOf w) (rs1Of w) (rs2Of w))
  | _ => .error .funct3

/-- FLW, FLD (rule R77). -/
def decodeLoad (w : InstWord) : Except Reject Instr :=
  match (funct3Field w).toNat with
  | 0b010 => .ok (.flw (rdOf w) (rs1Of w) (immIField w))
  | 0b011 => .ok (.fld (rdOf w) (rs1Of w) (immIField w))
  | _ => .error .funct3

/-- FSW, FSD (rule R77). -/
def decodeStore (w : InstWord) : Except Reject Instr :=
  match (funct3Field w).toNat with
  | 0b010 => .ok (.fsw (rs2Of w) (rs1Of w) (immSField w))
  | 0b011 => .ok (.fsd (rs2Of w) (rs1Of w) (immSField w))
  | _ => .error .funct3

/-- FMADD.S, FMADD.D (rule R79). -/
def decodeFmadd (w : InstWord) : Except Reject Instr :=
  match (funct2Field w).toNat with
  | 0b00 => .ok (.fmaddS (rdOf w) (rs1Of w) (rs2Of w) (rs3Of w) (rmOfWord w))
  | 0b01 => .ok (.fmaddD (rdOf w) (rs1Of w) (rs2Of w) (rs3Of w) (rmOfWord w))
  | _ => .error .funct2

/-- FMSUB.S, FMSUB.D (rule R79). -/
def decodeFmsub (w : InstWord) : Except Reject Instr :=
  match (funct2Field w).toNat with
  | 0b00 => .ok (.fmsubS (rdOf w) (rs1Of w) (rs2Of w) (rs3Of w) (rmOfWord w))
  | 0b01 => .ok (.fmsubD (rdOf w) (rs1Of w) (rs2Of w) (rs3Of w) (rmOfWord w))
  | _ => .error .funct2

/-- FNMSUB.S, FNMSUB.D (rule R79). -/
def decodeFnmsub (w : InstWord) : Except Reject Instr :=
  match (funct2Field w).toNat with
  | 0b00 => .ok (.fnmsubS (rdOf w) (rs1Of w) (rs2Of w) (rs3Of w) (rmOfWord w))
  | 0b01 => .ok (.fnmsubD (rdOf w) (rs1Of w) (rs2Of w) (rs3Of w) (rmOfWord w))
  | _ => .error .funct2

/-- FNMADD.S, FNMADD.D (rule R79). -/
def decodeFnmadd (w : InstWord) : Except Reject Instr :=
  match (funct2Field w).toNat with
  | 0b00 => .ok (.fnmaddS (rdOf w) (rs1Of w) (rs2Of w) (rs3Of w) (rmOfWord w))
  | 0b01 => .ok (.fnmaddD (rdOf w) (rs1Of w) (rs2Of w) (rs3Of w) (rmOfWord w))
  | _ => .error .funct2

/-- funct7 1100000: FCVT.W.S, FCVT.WU.S, FCVT.L.S, FCVT.LU.S (rules R78, R80). -/
def decodeIntOfS (w : InstWord) : Except Reject Instr :=
  match (rs2Field w).toNat with
  | 0b00000 => .ok (.fcvtWS (rdOf w) (rs1Of w) (rmOfWord w))
  | 0b00001 => .ok (.fcvtWUS (rdOf w) (rs1Of w) (rmOfWord w))
  | 0b00010 => .ok (.fcvtLS (rdOf w) (rs1Of w) (rmOfWord w))
  | 0b00011 => .ok (.fcvtLUS (rdOf w) (rs1Of w) (rmOfWord w))
  | _ => .error .rs2

/-- funct7 1101000: FCVT.S.W, FCVT.S.WU, FCVT.S.L, FCVT.S.LU (rules R78, R80). -/
def decodeSOfInt (w : InstWord) : Except Reject Instr :=
  match (rs2Field w).toNat with
  | 0b00000 => .ok (.fcvtSW (rdOf w) (rs1Of w) (rmOfWord w))
  | 0b00001 => .ok (.fcvtSWU (rdOf w) (rs1Of w) (rmOfWord w))
  | 0b00010 => .ok (.fcvtSL (rdOf w) (rs1Of w) (rmOfWord w))
  | 0b00011 => .ok (.fcvtSLU (rdOf w) (rs1Of w) (rmOfWord w))
  | _ => .error .rs2

/-- funct7 1100001: FCVT.W.D, FCVT.WU.D, FCVT.L.D, FCVT.LU.D (rules R78, R80). -/
def decodeIntOfD (w : InstWord) : Except Reject Instr :=
  match (rs2Field w).toNat with
  | 0b00000 => .ok (.fcvtWD (rdOf w) (rs1Of w) (rmOfWord w))
  | 0b00001 => .ok (.fcvtWUD (rdOf w) (rs1Of w) (rmOfWord w))
  | 0b00010 => .ok (.fcvtLD (rdOf w) (rs1Of w) (rmOfWord w))
  | 0b00011 => .ok (.fcvtLUD (rdOf w) (rs1Of w) (rmOfWord w))
  | _ => .error .rs2

/-- funct7 1101001: FCVT.D.W, FCVT.D.WU, FCVT.D.L, FCVT.D.LU (rules R78, R80). -/
def decodeDOfInt (w : InstWord) : Except Reject Instr :=
  match (rs2Field w).toNat with
  | 0b00000 => .ok (.fcvtDW (rdOf w) (rs1Of w) (rmOfWord w))
  | 0b00001 => .ok (.fcvtDWU (rdOf w) (rs1Of w) (rmOfWord w))
  | 0b00010 => .ok (.fcvtDL (rdOf w) (rs1Of w) (rmOfWord w))
  | 0b00011 => .ok (.fcvtDLU (rdOf w) (rs1Of w) (rmOfWord w))
  | _ => .error .rs2

/-- funct7 0010100: FMIN.S, FMAX.S (rule R78). -/
def decodeMinMaxS (w : InstWord) : Except Reject Instr :=
  match (funct3Field w).toNat with
  | 0b000 => .ok (.fminS (rdOf w) (rs1Of w) (rs2Of w))
  | 0b001 => .ok (.fmaxS (rdOf w) (rs1Of w) (rs2Of w))
  | _ => .error .funct3

/-- funct7 0010101: FMIN.D, FMAX.D (rule R78). -/
def decodeMinMaxD (w : InstWord) : Except Reject Instr :=
  match (funct3Field w).toNat with
  | 0b000 => .ok (.fminD (rdOf w) (rs1Of w) (rs2Of w))
  | 0b001 => .ok (.fmaxD (rdOf w) (rs1Of w) (rs2Of w))
  | _ => .error .funct3

/-- funct7 1010000: FEQ.S, FLT.S, FLE.S (rule R78). -/
def decodeCmpS (w : InstWord) : Except Reject Instr :=
  match (funct3Field w).toNat with
  | 0b010 => .ok (.feqS (rdOf w) (rs1Of w) (rs2Of w))
  | 0b001 => .ok (.fltS (rdOf w) (rs1Of w) (rs2Of w))
  | 0b000 => .ok (.fleS (rdOf w) (rs1Of w) (rs2Of w))
  | _ => .error .funct3

/-- funct7 1010001: FEQ.D, FLT.D, FLE.D (rule R78). -/
def decodeCmpD (w : InstWord) : Except Reject Instr :=
  match (funct3Field w).toNat with
  | 0b010 => .ok (.feqD (rdOf w) (rs1Of w) (rs2Of w))
  | 0b001 => .ok (.fltD (rdOf w) (rs1Of w) (rs2Of w))
  | 0b000 => .ok (.fleD (rdOf w) (rs1Of w) (rs2Of w))
  | _ => .error .funct3

/-- funct7 1110000 with rs2 = 00000: FCLASS.S, FMV.X.W (rule R78). -/
def decodeMvClassS (w : InstWord) : Except Reject Instr :=
  match (funct3Field w).toNat with
  | 0b001 => .ok (.fclassS (rdOf w) (rs1Of w))
  | 0b000 => .ok (.fmvXW (rdOf w) (rs1Of w))
  | _ => .error .funct3

/-- funct7 1110001 with rs2 = 00000: FCLASS.D, FMV.X.D (rule R78). -/
def decodeMvClassD (w : InstWord) : Except Reject Instr :=
  match (funct3Field w).toNat with
  | 0b001 => .ok (.fclassD (rdOf w) (rs1Of w))
  | 0b000 => .ok (.fmvXD (rdOf w) (rs1Of w))
  | _ => .error .funct3

/-- funct7 0010000: FSGNJ.S, FSGNJN.S, FSGNJX.S (rule R78). -/
def decodeSgnjS (w : InstWord) : Except Reject Instr :=
  match (funct3Field w).toNat with
  | 0b000 => .ok (.fsgnjS (rdOf w) (rs1Of w) (rs2Of w))
  | 0b001 => .ok (.fsgnjnS (rdOf w) (rs1Of w) (rs2Of w))
  | 0b010 => .ok (.fsgnjxS (rdOf w) (rs1Of w) (rs2Of w))
  | _ => .error .funct3

/-- funct7 0010001: FSGNJ.D, FSGNJN.D, FSGNJX.D (rule R78). -/
def decodeSgnjD (w : InstWord) : Except Reject Instr :=
  match (funct3Field w).toNat with
  | 0b000 => .ok (.fsgnjD (rdOf w) (rs1Of w) (rs2Of w))
  | 0b001 => .ok (.fsgnjnD (rdOf w) (rs1Of w) (rs2Of w))
  | 0b010 => .ok (.fsgnjxD (rdOf w) (rs1Of w) (rs2Of w))
  | _ => .error .funct3

/-- OP-FP: the funct7 column of rule R78. -/
def decodeOpFp (w : InstWord) : Except Reject Instr :=
  match (funct7Field w).toNat with
  | 0b0000000 => .ok (.faddS (rdOf w) (rs1Of w) (rs2Of w) (rmOfWord w))
  | 0b0000100 => .ok (.fsubS (rdOf w) (rs1Of w) (rs2Of w) (rmOfWord w))
  | 0b0001000 => .ok (.fmulS (rdOf w) (rs1Of w) (rs2Of w) (rmOfWord w))
  | 0b0001100 => .ok (.fdivS (rdOf w) (rs1Of w) (rs2Of w) (rmOfWord w))
  | 0b0101100 => if rs2Field w = 0b00000#5 then .ok (.fsqrtS (rdOf w) (rs1Of w) (rmOfWord w)) else .error .rs2
  | 0b0000001 => .ok (.faddD (rdOf w) (rs1Of w) (rs2Of w) (rmOfWord w))
  | 0b0000101 => .ok (.fsubD (rdOf w) (rs1Of w) (rs2Of w) (rmOfWord w))
  | 0b0001001 => .ok (.fmulD (rdOf w) (rs1Of w) (rs2Of w) (rmOfWord w))
  | 0b0001101 => .ok (.fdivD (rdOf w) (rs1Of w) (rs2Of w) (rmOfWord w))
  | 0b0101101 => if rs2Field w = 0b00000#5 then .ok (.fsqrtD (rdOf w) (rs1Of w) (rmOfWord w)) else .error .rs2
  | 0b1100000 => decodeIntOfS w
  | 0b1101000 => decodeSOfInt w
  | 0b1100001 => decodeIntOfD w
  | 0b1101001 => decodeDOfInt w
  | 0b0100000 => if rs2Field w = 0b00001#5 then .ok (.fcvtSD (rdOf w) (rs1Of w) (rmOfWord w)) else .error .rs2
  | 0b0100001 => if rs2Field w = 0b00000#5 then .ok (.fcvtDS (rdOf w) (rs1Of w) (rmOfWord w)) else .error .rs2
  | 0b0010100 => decodeMinMaxS w
  | 0b0010101 => decodeMinMaxD w
  | 0b1010000 => decodeCmpS w
  | 0b1010001 => decodeCmpD w
  | 0b1110000 => if rs2Field w = 0b00000#5 then decodeMvClassS w else .error .rs2
  | 0b1110001 => if rs2Field w = 0b00000#5 then decodeMvClassD w else .error .rs2
  | 0b0010000 => decodeSgnjS w
  | 0b0010001 => decodeSgnjD w
  | 0b1111000 => if rs2Field w = 0b00000#5 then if funct3Field w = 0b000#3 then .ok (.fmvWX (rdOf w) (rs1Of w)) else .error .funct3 else .error .rs2
  | 0b1111001 => if rs2Field w = 0b00000#5 then if funct3Field w = 0b000#3 then .ok (.fmvDX (rdOf w) (rs1Of w)) else .error .funct3 else .error .rs2
  | _ => .error .funct7

/-- The instruction a word is, or the reason it is none of the block (rules R75 to R82). -/
def decode (w : InstWord) : Except Reject Instr :=
  match (opcodeField w).toNat with
  | 0x33 => if funct7Field w = 0x01#7 then decodeOp w else .error .funct7
  | 0x3B => if funct7Field w = 0x01#7 then decodeOp32 w else .error .funct7
  | 0x07 => decodeLoad w
  | 0x27 => decodeStore w
  | 0x53 => decodeOpFp w
  | 0x43 => decodeFmadd w
  | 0x47 => decodeFmsub w
  | 0x4B => decodeFnmsub w
  | 0x4F => decodeFnmadd w
  | _ => .error .opcode

/-! ### The encoder -/

/-- The R layout (rule R70). -/
def rType (funct7 : BitVec 7) (rs2 rs1 : BitVec 5) (funct3 : BitVec 3) (rd : BitVec 5) (opcode : BitVec 7) : InstWord :=
  funct7 ++ rs2 ++ rs1 ++ funct3 ++ rd ++ opcode

/-- The R4 layout (rule R71). -/
def r4Type (rs3 : BitVec 5) (funct2 : BitVec 2) (rs2 rs1 : BitVec 5) (rm : BitVec 3) (rd : BitVec 5) (opcode : BitVec 7) :
    InstWord :=
  rs3 ++ funct2 ++ rs2 ++ rs1 ++ rm ++ rd ++ opcode

/-- The I layout (rule R72). -/
def iType (imm : BitVec 12) (rs1 : BitVec 5) (funct3 : BitVec 3) (rd : BitVec 5) (opcode : BitVec 7) : InstWord :=
  imm ++ rs1 ++ funct3 ++ rd ++ opcode

/-- The S layout (rule R73). -/
def sType (imm : BitVec 12) (rs2 rs1 : BitVec 5) (funct3 : BitVec 3) (opcode : BitVec 7) : InstWord :=
  imm.extractLsb' 5 7 ++ rs2 ++ rs1 ++ funct3 ++ imm.extractLsb' 0 5 ++ opcode

/-- The word of an instruction (rules R75 to R80). -/
def encode : Instr → InstWord
  | .mul rd rs1 rs2 => rType 0b0000001 (regBits rs2) (regBits rs1) 0b000 (regBits rd) 0b0110011
  | .mulh rd rs1 rs2 => rType 0b0000001 (regBits rs2) (regBits rs1) 0b001 (regBits rd) 0b0110011
  | .mulhsu rd rs1 rs2 => rType 0b0000001 (regBits rs2) (regBits rs1) 0b010 (regBits rd) 0b0110011
  | .mulhu rd rs1 rs2 => rType 0b0000001 (regBits rs2) (regBits rs1) 0b011 (regBits rd) 0b0110011
  | .div rd rs1 rs2 => rType 0b0000001 (regBits rs2) (regBits rs1) 0b100 (regBits rd) 0b0110011
  | .divu rd rs1 rs2 => rType 0b0000001 (regBits rs2) (regBits rs1) 0b101 (regBits rd) 0b0110011
  | .rem rd rs1 rs2 => rType 0b0000001 (regBits rs2) (regBits rs1) 0b110 (regBits rd) 0b0110011
  | .remu rd rs1 rs2 => rType 0b0000001 (regBits rs2) (regBits rs1) 0b111 (regBits rd) 0b0110011
  | .mulw rd rs1 rs2 => rType 0b0000001 (regBits rs2) (regBits rs1) 0b000 (regBits rd) 0b0111011
  | .divw rd rs1 rs2 => rType 0b0000001 (regBits rs2) (regBits rs1) 0b100 (regBits rd) 0b0111011
  | .divuw rd rs1 rs2 => rType 0b0000001 (regBits rs2) (regBits rs1) 0b101 (regBits rd) 0b0111011
  | .remw rd rs1 rs2 => rType 0b0000001 (regBits rs2) (regBits rs1) 0b110 (regBits rd) 0b0111011
  | .remuw rd rs1 rs2 => rType 0b0000001 (regBits rs2) (regBits rs1) 0b111 (regBits rd) 0b0111011
  | .flw rd rs1 imm => iType imm (regBits rs1) 0b010 (regBits rd) 0b0000111
  | .fld rd rs1 imm => iType imm (regBits rs1) 0b011 (regBits rd) 0b0000111
  | .fsw rs2 rs1 imm => sType imm (regBits rs2) (regBits rs1) 0b010 0b0100111
  | .fsd rs2 rs1 imm => sType imm (regBits rs2) (regBits rs1) 0b011 0b0100111
  | .fmaddS rd rs1 rs2 rs3 rm => r4Type (regBits rs3) 0b00 (regBits rs2) (regBits rs1) (rmBits rm) (regBits rd) 0b1000011
  | .fmsubS rd rs1 rs2 rs3 rm => r4Type (regBits rs3) 0b00 (regBits rs2) (regBits rs1) (rmBits rm) (regBits rd) 0b1000111
  | .fnmsubS rd rs1 rs2 rs3 rm => r4Type (regBits rs3) 0b00 (regBits rs2) (regBits rs1) (rmBits rm) (regBits rd) 0b1001011
  | .fnmaddS rd rs1 rs2 rs3 rm => r4Type (regBits rs3) 0b00 (regBits rs2) (regBits rs1) (rmBits rm) (regBits rd) 0b1001111
  | .fmaddD rd rs1 rs2 rs3 rm => r4Type (regBits rs3) 0b01 (regBits rs2) (regBits rs1) (rmBits rm) (regBits rd) 0b1000011
  | .fmsubD rd rs1 rs2 rs3 rm => r4Type (regBits rs3) 0b01 (regBits rs2) (regBits rs1) (rmBits rm) (regBits rd) 0b1000111
  | .fnmsubD rd rs1 rs2 rs3 rm => r4Type (regBits rs3) 0b01 (regBits rs2) (regBits rs1) (rmBits rm) (regBits rd) 0b1001011
  | .fnmaddD rd rs1 rs2 rs3 rm => r4Type (regBits rs3) 0b01 (regBits rs2) (regBits rs1) (rmBits rm) (regBits rd) 0b1001111
  | .faddS rd rs1 rs2 rm => rType 0b0000000 (regBits rs2) (regBits rs1) (rmBits rm) (regBits rd) 0b1010011
  | .fsubS rd rs1 rs2 rm => rType 0b0000100 (regBits rs2) (regBits rs1) (rmBits rm) (regBits rd) 0b1010011
  | .fmulS rd rs1 rs2 rm => rType 0b0001000 (regBits rs2) (regBits rs1) (rmBits rm) (regBits rd) 0b1010011
  | .fdivS rd rs1 rs2 rm => rType 0b0001100 (regBits rs2) (regBits rs1) (rmBits rm) (regBits rd) 0b1010011
  | .fsqrtS rd rs1 rm => rType 0b0101100 0b00000 (regBits rs1) (rmBits rm) (regBits rd) 0b1010011
  | .faddD rd rs1 rs2 rm => rType 0b0000001 (regBits rs2) (regBits rs1) (rmBits rm) (regBits rd) 0b1010011
  | .fsubD rd rs1 rs2 rm => rType 0b0000101 (regBits rs2) (regBits rs1) (rmBits rm) (regBits rd) 0b1010011
  | .fmulD rd rs1 rs2 rm => rType 0b0001001 (regBits rs2) (regBits rs1) (rmBits rm) (regBits rd) 0b1010011
  | .fdivD rd rs1 rs2 rm => rType 0b0001101 (regBits rs2) (regBits rs1) (rmBits rm) (regBits rd) 0b1010011
  | .fsqrtD rd rs1 rm => rType 0b0101101 0b00000 (regBits rs1) (rmBits rm) (regBits rd) 0b1010011
  | .fcvtWS rd rs1 rm => rType 0b1100000 0b00000 (regBits rs1) (rmBits rm) (regBits rd) 0b1010011
  | .fcvtWUS rd rs1 rm => rType 0b1100000 0b00001 (regBits rs1) (rmBits rm) (regBits rd) 0b1010011
  | .fcvtLS rd rs1 rm => rType 0b1100000 0b00010 (regBits rs1) (rmBits rm) (regBits rd) 0b1010011
  | .fcvtLUS rd rs1 rm => rType 0b1100000 0b00011 (regBits rs1) (rmBits rm) (regBits rd) 0b1010011
  | .fcvtSW rd rs1 rm => rType 0b1101000 0b00000 (regBits rs1) (rmBits rm) (regBits rd) 0b1010011
  | .fcvtSWU rd rs1 rm => rType 0b1101000 0b00001 (regBits rs1) (rmBits rm) (regBits rd) 0b1010011
  | .fcvtSL rd rs1 rm => rType 0b1101000 0b00010 (regBits rs1) (rmBits rm) (regBits rd) 0b1010011
  | .fcvtSLU rd rs1 rm => rType 0b1101000 0b00011 (regBits rs1) (rmBits rm) (regBits rd) 0b1010011
  | .fcvtWD rd rs1 rm => rType 0b1100001 0b00000 (regBits rs1) (rmBits rm) (regBits rd) 0b1010011
  | .fcvtWUD rd rs1 rm => rType 0b1100001 0b00001 (regBits rs1) (rmBits rm) (regBits rd) 0b1010011
  | .fcvtLD rd rs1 rm => rType 0b1100001 0b00010 (regBits rs1) (rmBits rm) (regBits rd) 0b1010011
  | .fcvtLUD rd rs1 rm => rType 0b1100001 0b00011 (regBits rs1) (rmBits rm) (regBits rd) 0b1010011
  | .fcvtDW rd rs1 rm => rType 0b1101001 0b00000 (regBits rs1) (rmBits rm) (regBits rd) 0b1010011
  | .fcvtDWU rd rs1 rm => rType 0b1101001 0b00001 (regBits rs1) (rmBits rm) (regBits rd) 0b1010011
  | .fcvtDL rd rs1 rm => rType 0b1101001 0b00010 (regBits rs1) (rmBits rm) (regBits rd) 0b1010011
  | .fcvtDLU rd rs1 rm => rType 0b1101001 0b00011 (regBits rs1) (rmBits rm) (regBits rd) 0b1010011
  | .fcvtSD rd rs1 rm => rType 0b0100000 0b00001 (regBits rs1) (rmBits rm) (regBits rd) 0b1010011
  | .fcvtDS rd rs1 rm => rType 0b0100001 0b00000 (regBits rs1) (rmBits rm) (regBits rd) 0b1010011
  | .fminS rd rs1 rs2 => rType 0b0010100 (regBits rs2) (regBits rs1) 0b000 (regBits rd) 0b1010011
  | .fmaxS rd rs1 rs2 => rType 0b0010100 (regBits rs2) (regBits rs1) 0b001 (regBits rd) 0b1010011
  | .fminD rd rs1 rs2 => rType 0b0010101 (regBits rs2) (regBits rs1) 0b000 (regBits rd) 0b1010011
  | .fmaxD rd rs1 rs2 => rType 0b0010101 (regBits rs2) (regBits rs1) 0b001 (regBits rd) 0b1010011
  | .feqS rd rs1 rs2 => rType 0b1010000 (regBits rs2) (regBits rs1) 0b010 (regBits rd) 0b1010011
  | .fltS rd rs1 rs2 => rType 0b1010000 (regBits rs2) (regBits rs1) 0b001 (regBits rd) 0b1010011
  | .fleS rd rs1 rs2 => rType 0b1010000 (regBits rs2) (regBits rs1) 0b000 (regBits rd) 0b1010011
  | .feqD rd rs1 rs2 => rType 0b1010001 (regBits rs2) (regBits rs1) 0b010 (regBits rd) 0b1010011
  | .fltD rd rs1 rs2 => rType 0b1010001 (regBits rs2) (regBits rs1) 0b001 (regBits rd) 0b1010011
  | .fleD rd rs1 rs2 => rType 0b1010001 (regBits rs2) (regBits rs1) 0b000 (regBits rd) 0b1010011
  | .fclassS rd rs1 => rType 0b1110000 0b00000 (regBits rs1) 0b001 (regBits rd) 0b1010011
  | .fclassD rd rs1 => rType 0b1110001 0b00000 (regBits rs1) 0b001 (regBits rd) 0b1010011
  | .fsgnjS rd rs1 rs2 => rType 0b0010000 (regBits rs2) (regBits rs1) 0b000 (regBits rd) 0b1010011
  | .fsgnjnS rd rs1 rs2 => rType 0b0010000 (regBits rs2) (regBits rs1) 0b001 (regBits rd) 0b1010011
  | .fsgnjxS rd rs1 rs2 => rType 0b0010000 (regBits rs2) (regBits rs1) 0b010 (regBits rd) 0b1010011
  | .fsgnjD rd rs1 rs2 => rType 0b0010001 (regBits rs2) (regBits rs1) 0b000 (regBits rd) 0b1010011
  | .fsgnjnD rd rs1 rs2 => rType 0b0010001 (regBits rs2) (regBits rs1) 0b001 (regBits rd) 0b1010011
  | .fsgnjxD rd rs1 rs2 => rType 0b0010001 (regBits rs2) (regBits rs1) 0b010 (regBits rd) 0b1010011
  | .fmvXW rd rs1 => rType 0b1110000 0b00000 (regBits rs1) 0b000 (regBits rd) 0b1010011
  | .fmvWX rd rs1 => rType 0b1111000 0b00000 (regBits rs1) 0b000 (regBits rd) 0b1010011
  | .fmvXD rd rs1 => rType 0b1110001 0b00000 (regBits rs1) 0b000 (regBits rd) 0b1010011
  | .fmvDX rd rs1 => rType 0b1111001 0b00000 (regBits rs1) 0b000 (regBits rd) 0b1010011

/-! ### The opcode table -/

/-- A row of opcode_table.json: a word is the row's instruction iff `word &&& mask = pattern` (rule R78). -/
structure Row where
  mnemonic : String
  pattern : InstWord
  mask : InstWord
deriving DecidableEq, Repr

/-- The row of an instruction, copied from opcode_table.json. -/
def Instr.row : Instr → Row
  | .mul _ _ _ => ⟨"MUL", 0x02000033, 0xFE00707F⟩
  | .mulh _ _ _ => ⟨"MULH", 0x02001033, 0xFE00707F⟩
  | .mulhsu _ _ _ => ⟨"MULHSU", 0x02002033, 0xFE00707F⟩
  | .mulhu _ _ _ => ⟨"MULHU", 0x02003033, 0xFE00707F⟩
  | .div _ _ _ => ⟨"DIV", 0x02004033, 0xFE00707F⟩
  | .divu _ _ _ => ⟨"DIVU", 0x02005033, 0xFE00707F⟩
  | .rem _ _ _ => ⟨"REM", 0x02006033, 0xFE00707F⟩
  | .remu _ _ _ => ⟨"REMU", 0x02007033, 0xFE00707F⟩
  | .mulw _ _ _ => ⟨"MULW", 0x0200003B, 0xFE00707F⟩
  | .divw _ _ _ => ⟨"DIVW", 0x0200403B, 0xFE00707F⟩
  | .divuw _ _ _ => ⟨"DIVUW", 0x0200503B, 0xFE00707F⟩
  | .remw _ _ _ => ⟨"REMW", 0x0200603B, 0xFE00707F⟩
  | .remuw _ _ _ => ⟨"REMUW", 0x0200703B, 0xFE00707F⟩
  | .flw _ _ _ => ⟨"FLW", 0x00002007, 0x0000707F⟩
  | .fld _ _ _ => ⟨"FLD", 0x00003007, 0x0000707F⟩
  | .fsw _ _ _ => ⟨"FSW", 0x00002027, 0x0000707F⟩
  | .fsd _ _ _ => ⟨"FSD", 0x00003027, 0x0000707F⟩
  | .fmaddS _ _ _ _ _ => ⟨"FMADD.S", 0x00000043, 0x0600007F⟩
  | .fmsubS _ _ _ _ _ => ⟨"FMSUB.S", 0x00000047, 0x0600007F⟩
  | .fnmsubS _ _ _ _ _ => ⟨"FNMSUB.S", 0x0000004B, 0x0600007F⟩
  | .fnmaddS _ _ _ _ _ => ⟨"FNMADD.S", 0x0000004F, 0x0600007F⟩
  | .fmaddD _ _ _ _ _ => ⟨"FMADD.D", 0x02000043, 0x0600007F⟩
  | .fmsubD _ _ _ _ _ => ⟨"FMSUB.D", 0x02000047, 0x0600007F⟩
  | .fnmsubD _ _ _ _ _ => ⟨"FNMSUB.D", 0x0200004B, 0x0600007F⟩
  | .fnmaddD _ _ _ _ _ => ⟨"FNMADD.D", 0x0200004F, 0x0600007F⟩
  | .faddS _ _ _ _ => ⟨"FADD.S", 0x00000053, 0xFE00007F⟩
  | .fsubS _ _ _ _ => ⟨"FSUB.S", 0x08000053, 0xFE00007F⟩
  | .fmulS _ _ _ _ => ⟨"FMUL.S", 0x10000053, 0xFE00007F⟩
  | .fdivS _ _ _ _ => ⟨"FDIV.S", 0x18000053, 0xFE00007F⟩
  | .fsqrtS _ _ _ => ⟨"FSQRT.S", 0x58000053, 0xFFF0007F⟩
  | .faddD _ _ _ _ => ⟨"FADD.D", 0x02000053, 0xFE00007F⟩
  | .fsubD _ _ _ _ => ⟨"FSUB.D", 0x0A000053, 0xFE00007F⟩
  | .fmulD _ _ _ _ => ⟨"FMUL.D", 0x12000053, 0xFE00007F⟩
  | .fdivD _ _ _ _ => ⟨"FDIV.D", 0x1A000053, 0xFE00007F⟩
  | .fsqrtD _ _ _ => ⟨"FSQRT.D", 0x5A000053, 0xFFF0007F⟩
  | .fcvtWS _ _ _ => ⟨"FCVT.W.S", 0xC0000053, 0xFFF0007F⟩
  | .fcvtWUS _ _ _ => ⟨"FCVT.WU.S", 0xC0100053, 0xFFF0007F⟩
  | .fcvtLS _ _ _ => ⟨"FCVT.L.S", 0xC0200053, 0xFFF0007F⟩
  | .fcvtLUS _ _ _ => ⟨"FCVT.LU.S", 0xC0300053, 0xFFF0007F⟩
  | .fcvtSW _ _ _ => ⟨"FCVT.S.W", 0xD0000053, 0xFFF0007F⟩
  | .fcvtSWU _ _ _ => ⟨"FCVT.S.WU", 0xD0100053, 0xFFF0007F⟩
  | .fcvtSL _ _ _ => ⟨"FCVT.S.L", 0xD0200053, 0xFFF0007F⟩
  | .fcvtSLU _ _ _ => ⟨"FCVT.S.LU", 0xD0300053, 0xFFF0007F⟩
  | .fcvtWD _ _ _ => ⟨"FCVT.W.D", 0xC2000053, 0xFFF0007F⟩
  | .fcvtWUD _ _ _ => ⟨"FCVT.WU.D", 0xC2100053, 0xFFF0007F⟩
  | .fcvtLD _ _ _ => ⟨"FCVT.L.D", 0xC2200053, 0xFFF0007F⟩
  | .fcvtLUD _ _ _ => ⟨"FCVT.LU.D", 0xC2300053, 0xFFF0007F⟩
  | .fcvtDW _ _ _ => ⟨"FCVT.D.W", 0xD2000053, 0xFFF0007F⟩
  | .fcvtDWU _ _ _ => ⟨"FCVT.D.WU", 0xD2100053, 0xFFF0007F⟩
  | .fcvtDL _ _ _ => ⟨"FCVT.D.L", 0xD2200053, 0xFFF0007F⟩
  | .fcvtDLU _ _ _ => ⟨"FCVT.D.LU", 0xD2300053, 0xFFF0007F⟩
  | .fcvtSD _ _ _ => ⟨"FCVT.S.D", 0x40100053, 0xFFF0007F⟩
  | .fcvtDS _ _ _ => ⟨"FCVT.D.S", 0x42000053, 0xFFF0007F⟩
  | .fminS _ _ _ => ⟨"FMIN.S", 0x28000053, 0xFE00707F⟩
  | .fmaxS _ _ _ => ⟨"FMAX.S", 0x28001053, 0xFE00707F⟩
  | .fminD _ _ _ => ⟨"FMIN.D", 0x2A000053, 0xFE00707F⟩
  | .fmaxD _ _ _ => ⟨"FMAX.D", 0x2A001053, 0xFE00707F⟩
  | .feqS _ _ _ => ⟨"FEQ.S", 0xA0002053, 0xFE00707F⟩
  | .fltS _ _ _ => ⟨"FLT.S", 0xA0001053, 0xFE00707F⟩
  | .fleS _ _ _ => ⟨"FLE.S", 0xA0000053, 0xFE00707F⟩
  | .feqD _ _ _ => ⟨"FEQ.D", 0xA2002053, 0xFE00707F⟩
  | .fltD _ _ _ => ⟨"FLT.D", 0xA2001053, 0xFE00707F⟩
  | .fleD _ _ _ => ⟨"FLE.D", 0xA2000053, 0xFE00707F⟩
  | .fclassS _ _ => ⟨"FCLASS.S", 0xE0001053, 0xFFF0707F⟩
  | .fclassD _ _ => ⟨"FCLASS.D", 0xE2001053, 0xFFF0707F⟩
  | .fsgnjS _ _ _ => ⟨"FSGNJ.S", 0x20000053, 0xFE00707F⟩
  | .fsgnjnS _ _ _ => ⟨"FSGNJN.S", 0x20001053, 0xFE00707F⟩
  | .fsgnjxS _ _ _ => ⟨"FSGNJX.S", 0x20002053, 0xFE00707F⟩
  | .fsgnjD _ _ _ => ⟨"FSGNJ.D", 0x22000053, 0xFE00707F⟩
  | .fsgnjnD _ _ _ => ⟨"FSGNJN.D", 0x22001053, 0xFE00707F⟩
  | .fsgnjxD _ _ _ => ⟨"FSGNJX.D", 0x22002053, 0xFE00707F⟩
  | .fmvXW _ _ => ⟨"FMV.X.W", 0xE0000053, 0xFFF0707F⟩
  | .fmvWX _ _ => ⟨"FMV.W.X", 0xF0000053, 0xFFF0707F⟩
  | .fmvXD _ _ => ⟨"FMV.X.D", 0xE2000053, 0xFFF0707F⟩
  | .fmvDX _ _ => ⟨"FMV.D.X", 0xF2000053, 0xFFF0707F⟩

/-- The opcode table, in the order of opcode_table.json. -/
def opcodeRows : List Row :=
  [(Instr.mul 0 0 0).row,
   (Instr.mulh 0 0 0).row,
   (Instr.mulhsu 0 0 0).row,
   (Instr.mulhu 0 0 0).row,
   (Instr.div 0 0 0).row,
   (Instr.divu 0 0 0).row,
   (Instr.rem 0 0 0).row,
   (Instr.remu 0 0 0).row,
   (Instr.mulw 0 0 0).row,
   (Instr.divw 0 0 0).row,
   (Instr.divuw 0 0 0).row,
   (Instr.remw 0 0 0).row,
   (Instr.remuw 0 0 0).row,
   (Instr.flw 0 0 0).row,
   (Instr.fld 0 0 0).row] ++
  [(Instr.fsw 0 0 0).row,
   (Instr.fsd 0 0 0).row,
   (Instr.fmaddS 0 0 0 0 .rne).row,
   (Instr.fmsubS 0 0 0 0 .rne).row,
   (Instr.fnmsubS 0 0 0 0 .rne).row,
   (Instr.fnmaddS 0 0 0 0 .rne).row,
   (Instr.fmaddD 0 0 0 0 .rne).row,
   (Instr.fmsubD 0 0 0 0 .rne).row,
   (Instr.fnmsubD 0 0 0 0 .rne).row,
   (Instr.fnmaddD 0 0 0 0 .rne).row,
   (Instr.faddS 0 0 0 .rne).row,
   (Instr.fsubS 0 0 0 .rne).row,
   (Instr.fmulS 0 0 0 .rne).row,
   (Instr.fdivS 0 0 0 .rne).row,
   (Instr.fsqrtS 0 0 .rne).row] ++
  [(Instr.faddD 0 0 0 .rne).row,
   (Instr.fsubD 0 0 0 .rne).row,
   (Instr.fmulD 0 0 0 .rne).row,
   (Instr.fdivD 0 0 0 .rne).row,
   (Instr.fsqrtD 0 0 .rne).row,
   (Instr.fcvtWS 0 0 .rne).row,
   (Instr.fcvtWUS 0 0 .rne).row,
   (Instr.fcvtLS 0 0 .rne).row,
   (Instr.fcvtLUS 0 0 .rne).row,
   (Instr.fcvtSW 0 0 .rne).row,
   (Instr.fcvtSWU 0 0 .rne).row,
   (Instr.fcvtSL 0 0 .rne).row,
   (Instr.fcvtSLU 0 0 .rne).row,
   (Instr.fcvtWD 0 0 .rne).row,
   (Instr.fcvtWUD 0 0 .rne).row] ++
  [(Instr.fcvtLD 0 0 .rne).row,
   (Instr.fcvtLUD 0 0 .rne).row,
   (Instr.fcvtDW 0 0 .rne).row,
   (Instr.fcvtDWU 0 0 .rne).row,
   (Instr.fcvtDL 0 0 .rne).row,
   (Instr.fcvtDLU 0 0 .rne).row,
   (Instr.fcvtSD 0 0 .rne).row,
   (Instr.fcvtDS 0 0 .rne).row,
   (Instr.fminS 0 0 0).row,
   (Instr.fmaxS 0 0 0).row,
   (Instr.fminD 0 0 0).row,
   (Instr.fmaxD 0 0 0).row,
   (Instr.feqS 0 0 0).row,
   (Instr.fltS 0 0 0).row,
   (Instr.fleS 0 0 0).row] ++
  [(Instr.feqD 0 0 0).row,
   (Instr.fltD 0 0 0).row,
   (Instr.fleD 0 0 0).row,
   (Instr.fclassS 0 0).row,
   (Instr.fclassD 0 0).row,
   (Instr.fsgnjS 0 0 0).row,
   (Instr.fsgnjnS 0 0 0).row,
   (Instr.fsgnjxS 0 0 0).row,
   (Instr.fsgnjD 0 0 0).row,
   (Instr.fsgnjnD 0 0 0).row,
   (Instr.fsgnjxD 0 0 0).row,
   (Instr.fmvXW 0 0).row,
   (Instr.fmvWX 0 0).row,
   (Instr.fmvXD 0 0).row,
   (Instr.fmvDX 0 0).row]

/-- What the decoder reads from a word whose bits above `nbits` are zero, numbered as the table numbers them. -/
def decodeTableWord (nbits w : Nat) : Option Instr :=
  match decode (BitVec.ofNat 32 (w % 2 ^ nbits)) with
  | .ok i => some i
  | .error _ => none

end Sys2Proof
end

