-- ==== Sys2Proof/Config.lean ====
section
/-! DEFINITION. What is fixed for one hart: the OPEN parameters of the spec (00_scope.md rule R10,
92_eei_decisions.md D1, D14, D15, D16, D38) as plain data, and the values chosen for them after reset. -/
namespace Sys2Proof

/-- The hart's mode flag `rv` (00_scope.md rule R10). -/
inductive Rv where
  | rv32
  | rv64
deriving DecidableEq, Repr

/-- `xlen(m)`: 32 or 64, derived from the mode flag (00_scope.md rule R10). -/
abbrev Rv.xlen : Rv → Nat
  | .rv32 => 32
  | .rv64 => 64

/-- One write that a page-table walk makes in the host's memory (the accessed and dirty bits of
20_memory.md rule R52). -/
structure Touch where
  addr : Word
  byte : Byte
deriving DecidableEq, Repr

/-- What a translation row answers for an address it covers (20_memory.md rule R52). -/
inductive XlatReply where
  /-- `Ok`: the row's first address goes to `pa`, the later ones follow. -/
  | mapTo (pa : Word) (touches : List Touch)
  /-- `Err(code)`. -/
  | error (code : Word) (touches : List Touch)
  /-- The call never returns (93_implementation_defined.md section 1). -/
  | noReturn
deriving DecidableEq, Repr

/-- A row of the host's translation: `size` virtual addresses from `base`, with one answer for loads and one
for stores (DESIGN CHOICE, log entry 8). -/
structure Translation where
  base : Word
  size : Nat
  onLoad : XlatReply
  onStore : XlatReply
deriving DecidableEq, Repr

/-- What the host's memory answers in a region (20_memory.md rules R53, R54). -/
inductive MemReply where
  /-- The access is performed. -/
  | perform
  /-- An exception code; `none` is a failure without a more specific code. -/
  | error (code : Option Word)
  /-- The call never returns (93_implementation_defined.md section 1). -/
  | noReturn
deriving DecidableEq, Repr

/-- A region of the host's address map, `size` physical addresses from `base` (20_memory.md rule R59,
92_eei_decisions.md D38; DESIGN CHOICE, log entry 9). -/
structure Region where
  base : Word
  size : Nat
  onLoad : MemReply
  onStore : MemReply
deriving DecidableEq, Repr

/-- The host parameter `mem_misaligned` (20_memory.md rule R56, 92_eei_decisions.md D14). -/
inductive Misaligned where
  | perform
  | error (loadCode storeCode : Word)
deriving DecidableEq, Repr

/-- The host's answers to `vm_is_active`, `vm_translate`, `mem_read` and `mem_write` (10_state.md rule R40),
as plain data. -/
structure HostEnv where
  vmActive : Bool
  translations : List Translation
  loadPageFault : Word
  storePageFault : Word
  regions : List Region
  misaligned : Misaligned
  loadAccessFault : Word
  storeAccessFault : Word
deriving DecidableEq, Repr

namespace Config

/-- DESIGN CHOICE, unsafe (log entry 4): the reset machine is an RV64 hart. -/
def resetRv : Rv := .rv64

/-- DESIGN CHOICE, unsafe (log entry 3): `reset_pc`; 70_reset_and_hazards.md rule R332 gives none. -/
def resetPc : Word := 0

/-- DESIGN CHOICE, unsafe (log entry 4): `misa_reset`, bits D, F and M, the pre-state of
95_test_vectors.md; the spec gives no reset value. -/
def resetMisa : Word := 0x1028

/-- DESIGN CHOICE, unsafe (log entry 3): the value of x1..x31 and f0..f31 at reset. -/
def resetReg : Word := 0

/-- DESIGN CHOICE, unsafe (log entry 3): `frm_reset`. -/
def resetFrm : BitVec 3 := 0

/-- DESIGN CHOICE, unsafe (log entry 3): `fflags_reset`. -/
def resetFflags : BitVec 5 := 0

/-- DESIGN CHOICE, unsafe (log entry 5): what a byte of memory that nothing has written reads as;
20_memory.md rule R50 leaves the contents to the host. -/
def unlistedByte : Byte := 0

/-- The reset machine's host: VM inactive, every access performed (DESIGN CHOICE, unsafe: log entries 8, 9, 10),
with the RISC-V codes listed in 60_exceptions.md rule R302 (PRESUMED, unsafe). -/
def resetHost : HostEnv where
  vmActive := false
  translations := []
  loadPageFault := 13
  storePageFault := 15
  regions := []
  misaligned := .perform
  loadAccessFault := 5
  storeAccessFault := 7

end Config

end Sys2Proof
end

