-- ==== Sys2Proof/Machine/State.lean ====
section
/-! DEFINITION. The machine's state as plain data: the elements of the hart that the block reads or writes
(10_state.md, 70_reset_and_hazards.md rule R330), the host behind its interface, and the caller's input. -/
namespace Sys2Proof.Machine

/-- The host's memory: bytes at physical addresses below 2^64, in one canonical form (`Memory.wf`). -/
abbrev Memory := List Host.Cell

/-- Addresses strictly rise, stay below 2^64, and no entry equals what an unlisted address reads as. -/
def Memory.wf : Memory → Bool
  | [] => true
  | [c] => decide (c.1 < 2 ^ 64) && decide (c.2 ≠ Config.unlistedByte)
  | c :: d :: m => decide (c.1 < d.1) && decide (c.2 ≠ Config.unlistedByte) && Memory.wf (d :: m)

/-- One word the caller hands to the block, with its `is_C` flag (00_scope.md rule R3). -/
structure Offer where
  word : InstWord
  isC : Bool
deriving DecidableEq, Repr

/-- Why the machine stops. -/
inductive Fault where
  /-- Raised by FLW, FLD, FSW, FSD: the host's translation or memory call never returns, which
  93_implementation_defined.md section 1 treats as `stuck`. Safe: nothing is claimed of what follows (log entry 11). -/
  | hostCallNeverReturns
deriving DecidableEq, Repr

/-- Why a step has no meaning. -/
inductive Refusal where
  /-- Raised by the dispatch for an instruction that has no meaning yet. Safe. -/
  | notModelled (mnemonic : String)
  /-- Raised by the step: the caller has offered no word, so no transaction takes place. Safe (log entry 1). -/
  | noWordOffered
deriving DecidableEq, Repr

structure State where
  /-- The mode flag, fixed for the hart (00_scope.md rule R10). -/
  rv : Rv
  /-- x0..x31 (10_state.md rules R20, R21), each held zero-extended to 64 bits on RV32 (log entry 6). -/
  x : Vector Word 32
  /-- f0..f31, 64 bits each (10_state.md rule R24). -/
  f : Vector Word 32
  /-- The program counter (10_state.md rule R30), held like a general register. -/
  pc : Word
  /-- misa (10_state.md rule R34); the block reads bits 3 (D) and 5 (F). -/
  misa : Word
  /-- The dynamic rounding mode (10_state.md rule R35); any 3-bit value. -/
  frm : BitVec 3
  /-- The accrued flags NV, DZ, OF, UF, NX, from bit 4 down (10_state.md rule R36). -/
  fflags : BitVec 5
  /-- The cause a memory trap recorded (10_state.md rule R38). -/
  mcause : Word
  /-- The address a memory trap recorded (10_state.md rule R38). -/
  mtval : Word
  /-- The host's memory (20_memory.md rule R50). -/
  mem : Memory
  /-- The host's translation and memory parameters (10_state.md rule R40). -/
  host : HostEnv
  /-- The words the caller has offered and the block has not yet taken, the next one first (00_scope.md rule R3;
  DESIGN CHOICE, log entry 1). -/
  offers : List Offer
  /-- `is_C` of the transaction that runs (00_scope.md rule R3). -/
  isC : Bool
  /-- The `legal` result of the last transaction (00_scope.md rule R3; DESIGN CHOICE, log entry 2). -/
  legal : Bool
deriving DecidableEq, Repr

/-- What a step or a meaning answers. -/
abbrev Result := Host.Outcome State Fault Refusal

/-- The machine after reset. The spec fixes only x0 = 0 (70_reset_and_hazards.md rule R330); every other value is the
model's (DESIGN CHOICE or PRESUMED, log entries 1 to 5 and 8 to 10). -/
def State.reset : State where
  rv := Config.resetRv
  x := (Vector.replicate 32 Config.resetReg).set 0 0
  f := Vector.replicate 32 Config.resetReg
  pc := Config.resetPc
  misa := Config.resetMisa
  frm := Config.resetFrm
  fflags := Config.resetFflags
  mcause := Config.resetReg
  mtval := Config.resetReg
  mem := []
  host := Config.resetHost
  offers := []
  isC := false
  legal := true

end Sys2Proof.Machine
end

