-- ==== Sys2Proof/Machine/Ops.lean ====
section
/-! DEFINITION. The shared operations over the state: the host interface of 10_state.md rule R40 (registers, PC, CSR
fields, translation, memory), the trap finish helper and the illegal outcome (60_exceptions.md rules R300, R305). -/
namespace Sys2Proof.Machine

/-! ### Widths -/

/-- The low XLEN bits of a word, zero-extended: `w_XLEN` on a held value (00_scope.md rule R12). -/
def wrapX (rv : Rv) (v : Word) : Word :=
  match rv with
  | .rv32 => (v.setWidth 32).setWidth 64
  | .rv64 => v

/-- `sext_64` of a 32-bit word (00_scope.md rule R13). -/
def sext32 (v : BitVec 32) : Word := v.signExtend 64

/-- The low 32 bits of a word. -/
def low32 (v : Word) : BitVec 32 := v.setWidth 32

/-! ### General registers (10_state.md rules R20, R21) -/

/-- `read_gpr`: x0 reads as zero. -/
def State.readX (s : State) (r : XReg) : Word := if r = 0 then 0 else wrapX s.rv s.x[r]

/-- `write_gpr`: a write to x0 is discarded. -/
def State.writeX (s : State) (r : XReg) (v : Word) : State :=
  if r = 0 then s else { s with x := s.x.set r (wrapX s.rv v) }

/-! ### Floating-point registers (10_state.md rule R24): no hardwired one -/

/-- `read_fpr`: all 64 bits. -/
def State.readF (s : State) (r : FReg) : Word := s.f[r]

/-- `write_fpr`: all 64 bits. -/
def State.writeF (s : State) (r : FReg) (v : Word) : State := { s with f := s.f.set r v }

/-! ### Program counter (10_state.md rules R30, R31) -/

/-- `read_pc`. -/
def State.readPc (s : State) : Word := wrapX s.rv s.pc

/-- `write_pc`. -/
def State.writePc (s : State) (v : Word) : State := { s with pc := wrapX s.rv v }

/-- `npc`: pc + (is_C ? 2 : 4) modulo 2^XLEN (10_state.md rule R31, 92_eei_decisions.md D2, D20, D37). -/
def State.npc (s : State) : Word := wrapX s.rv (s.readPc + if s.isC then 2 else 4)

/-- `pc <- npc`, the end of every legal, non-trapping transaction; its `legal` result is true. -/
def State.retire (s : State) : State := { s.writePc s.npc with legal := true }

/-! ### Control and status registers (10_state.md rules R34 to R38) -/

/-- The CSRs the block reads or writes. -/
inductive Csr where
  | misa
  | frm
  | fflags
  | mcause
  | mtval
deriving DecidableEq, Repr

/-- The CSR's address, as the spec supplies it (log entry 12); no instruction of the block names one. -/
def Csr.address : Csr → BitVec 12
  | .misa => 0x301
  | .frm => 0x002
  | .fflags => 0x001
  | .mcause => 0x342
  | .mtval => 0x343

/-- `read_csr(m, addr)`. -/
def State.readCsr (s : State) : Csr → Word
  | .misa => s.misa
  | .frm => s.frm.setWidth 64
  | .fflags => s.fflags.setWidth 64
  | .mcause => s.mcause
  | .mtval => s.mtval

/-- `write_csr(m, addr, v)`, which the block uses on fflags, mcause and mtval only. -/
def State.writeCsr (s : State) : Csr → Word → State
  | .misa, v => { s with misa := v }
  | .frm, v => { s with frm := v.setWidth 3 }
  | .fflags, v => { s with fflags := v.setWidth 5 }
  | .mcause, v => { s with mcause := v }
  | .mtval, v => { s with mtval := v }

/-- misa.F = misa[5]. -/
def State.misaF (s : State) : Bool := (s.readCsr .misa).getLsbD 5

/-- misa.D = misa[3]. -/
def State.misaD (s : State) : Bool := (s.readCsr .misa).getLsbD 3

/-! ### Illegal words and memory traps -/

/-- `return illegal`: `(legal = false, m)`, every element of the hart unchanged; the caller raises the
illegal-instruction trap (00_scope.md rule R5, 60_exceptions.md rule R300; log entry 2). -/
def illegal (s : State) : Result := .next { s with legal := false }

/-- `finish_trap(m, code, tval)`: records the trap and leaves the PC to the host's trap layer, with `legal = true`
(60_exceptions.md rules R305, R308; 90_conflicts.md C6). -/
def finishTrap (s : State) (code tval : Word) : Result :=
  .next { (s.writeCsr .mcause code).writeCsr .mtval tval with legal := true }

/-! ### Bytes of the host's memory -/

/-- The byte at an address; an unlisted one reads as `Config.unlistedByte` (log entry 5). -/
def Memory.read : Memory → Nat → Byte
  | [], _ => Config.unlistedByte
  | c :: m, a => if c.1 = a then c.2 else Memory.read m a

/-- Store one byte, keeping the canonical form. -/
def Memory.write : Memory → Nat → Byte → Memory
  | [], a, b => if b = Config.unlistedByte then [] else [(a, b)]
  | c :: m, a, b =>
    if a < c.1 then
      if b = Config.unlistedByte then c :: m else (a, b) :: c :: m
    else if a = c.1 then
      if b = Config.unlistedByte then m else (a, b) :: m
    else c :: Memory.write m a b

/-- The `n` bytes from `pa`, the lowest address least significant (20_memory.md rule R55, 92_eei_decisions.md D13).
Addresses wrap modulo 2^64 (DESIGN CHOICE, log entry 9). -/
def Memory.loadLE (m : Memory) (pa : Word) : Nat → Nat
  | 0 => 0
  | n + 1 => (m.read pa.toNat).toNat + 256 * Memory.loadLE m (pa + 1) n

/-- Store the `n` low bytes of `v` from `pa` up, least significant first (20_memory.md rule R55). -/
def Memory.storeLE (m : Memory) (pa : Word) : Nat → Nat → Memory
  | 0, _ => m
  | n + 1, v => Memory.storeLE (m.write pa.toNat (BitVec.ofNat 8 v)) (pa + 1) n (v / 256)

/-- The writes of a page-table walk, in order (20_memory.md rule R52). -/
def Memory.touch (m : Memory) (ts : List Touch) : Memory :=
  ts.foldl (fun m t => m.write t.addr.toNat t.byte) m

/-! ### Host calls (20_memory.md rules R52 to R54) -/

/-- The access kind of a translation: `is_read`. -/
inductive Access where
  | load
  | store
deriving DecidableEq, Repr

/-- The width code of a memory call: funct3 010 or 011 (20_memory.md rules R53, R54, R57). -/
inductive MemWidth where
  | word
  | double
deriving DecidableEq, Repr

/-- The number of bytes of an access (20_memory.md rule R57, 92_eei_decisions.md D23). -/
def MemWidth.bytes : MemWidth → Nat
  | .word => 4
  | .double => 8

/-- What a host call returns: a result with the state after it. -/
inductive HostAnswer where
  | ok (value : Word) (s : State)
  | error (code : Word) (s : State)
  | noReturn
deriving DecidableEq, Repr

/-- `a` is one of the `size` addresses from `base`, modulo 2^64. -/
def covers (base : Word) (size : Nat) (a : Word) : Bool := decide ((a - base).toNat < size)

/-- The answer for `kind` of a translation row. -/
def translationReply (t : Translation) : Access → XlatReply
  | .load => t.onLoad
  | .store => t.onStore

/-- The answer for `kind` of a region. -/
def regionAnswer (r : Region) : Access → MemReply
  | .load => r.onLoad
  | .store => r.onStore

/-- The code of an address no translation row covers. -/
def pageFaultCode (h : HostEnv) : Access → Word
  | .load => h.loadPageFault
  | .store => h.storePageFault

/-- `vm_translate(m, false, is_read, va)` (20_memory.md rules R52, R60): the first row that covers the address answers,
and the walk's writes stay in the returned state (DESIGN CHOICE, log entry 8). -/
def vmTranslate (s : State) (kind : Access) (va : Word) : HostAnswer :=
  match s.host.translations.find? (fun t => covers t.base t.size va) with
  | none => .error (pageFaultCode s.host kind) s
  | some t =>
    match translationReply t kind with
    | .mapTo pa touches => .ok (pa + (va - t.base)) { s with mem := s.mem.touch touches }
    | .error code touches => .error code { s with mem := s.mem.touch touches }
    | .noReturn => .noReturn

/-- `Translate(ea, kind)`: pa = ea when VM is inactive (20_memory.md rule R52, 92_eei_decisions.md D24). -/
def translate (s : State) (kind : Access) (ea : Word) : HostAnswer :=
  if s.host.vmActive then vmTranslate s kind ea else .ok ea s

/-- The access touches a byte of the region. -/
def touchesRegion (r : Region) (pa : Word) (n : Nat) : Bool :=
  (List.range n).any fun k => covers r.base r.size (pa + BitVec.ofNat 64 k)

/-- The answer of the first region the access touches; outside every region it is performed (log entry 9). -/
def regionReply (s : State) (kind : Access) (w : MemWidth) (pa : Word) : MemReply :=
  match s.host.regions.find? (fun r => touchesRegion r pa w.bytes) with
  | some r => regionAnswer r kind
  | none => .perform

/-- The host's answer to an access: its misalignment policy first, then its regions (20_memory.md rule R56,
92_eei_decisions.md D14; the order is a DESIGN CHOICE, log entry 10). -/
def memReply (s : State) (kind : Access) (w : MemWidth) (pa : Word) : MemReply :=
  match s.host.misaligned with
  | .perform => regionReply s kind w pa
  | .error loadCode storeCode =>
    if pa.toNat % w.bytes = 0 then regionReply s kind w pa
    else .error (some (match kind with | .load => loadCode | .store => storeCode))

/-- `mem_read(m, default_exc, funct3, pa)`: the value zero-extended to 64 bits, or a code (20_memory.md rule R53). -/
def memRead (s : State) (defaultExc : Word) (w : MemWidth) (pa : Word) : HostAnswer :=
  match memReply s .load w pa with
  | .perform => .ok (BitVec.ofNat 64 (s.mem.loadLE pa w.bytes)) s
  | .error (some code) => .error code s
  | .error none => .error defaultExc s
  | .noReturn => .noReturn

/-- `mem_write(m, funct3, pa, v)`: the low bytes of `v` are stored, or a code is returned and nothing is
(20_memory.md rule R54). -/
def memWrite (s : State) (w : MemWidth) (pa v : Word) : HostAnswer :=
  match memReply s .store w pa with
  | .perform => .ok 0 { s with mem := s.mem.storeLE pa w.bytes v.toNat }
  | .error (some code) => .error code s
  | .error none => .error s.host.storeAccessFault s
  | .noReturn => .noReturn

/-- What follows a host call: go on with its value, record a trap at the virtual address `ea`
(47_fp_load_store.md rule R285), or stop. -/
def HostAnswer.andThen (a : HostAnswer) (ea : Word) (k : Word → State → Result) : Result :=
  match a with
  | .ok v s => k v s
  | .error code s => finishTrap s code ea
  | .noReturn => .fault .hostCallNeverReturns

/-- The load path of FLW and FLD: translate, then read, then the register write `k` (47_fp_load_store.md rules R280,
R281; 60_exceptions.md rule R307). `default_exc` is the host's load access-fault code (92_eei_decisions.md D15). -/
def loadThen (s : State) (w : MemWidth) (ea : Word) (k : Word → State → Result) : Result :=
  (translate s .load ea).andThen ea fun pa s1 =>
    (memRead s1 s1.host.loadAccessFault w pa).andThen ea k

/-- The store path of FSW and FSD: translate, then write, then only the PC (47_fp_load_store.md rules R282, R283). -/
def storeThen (s : State) (w : MemWidth) (ea v : Word) : Result :=
  (translate s .store ea).andThen ea fun pa s1 =>
    (memWrite s1 w pa v).andThen ea fun _ s2 => .next s2.retire

end Sys2Proof.Machine
end

