-- ==== Sys2Proof/Machine/Flags.lean ====
section
/-! DEFINITION. The accrued floating-point flags (10_state.md rule R36, 42_fp_numerics.md rule R159). The M instructions
set no flag (10_state.md rule R39). -/
namespace Sys2Proof.Machine

/-- A 5-bit set of flags. -/
abbrev FpFlags := BitVec 5

namespace FpFlag

/-- No flag. -/
def none : FpFlags := 0b00000

/-- Invalid operation. -/
def nv : FpFlags := 0b10000

/-- Divide by zero. -/
def dz : FpFlags := 0b01000

/-- Overflow. -/
def of : FpFlags := 0b00100

/-- Underflow. -/
def uf : FpFlags := 0b00010

/-- Inexact. -/
def nx : FpFlags := 0b00001

/-- The flag when the condition holds. -/
def ifTrue (c : Bool) (fl : FpFlags) : FpFlags := if c then fl else none

end FpFlag

/-- `fflags <- fflags | fl`: bits are set, never cleared (42_fp_numerics.md rule R159). -/
def State.accrue (s : State) (fl : FpFlags) : State :=
  s.writeCsr .fflags (s.readCsr .fflags ||| fl.setWidth 64)

/-- `fcsr` = {frm, fflags} in bits [7:0]: a view the host may offer, which the block neither reads nor writes (10_state.md
rule R37). -/
def State.fcsr (s : State) : BitVec 8 := s.frm ++ s.fflags

end Sys2Proof.Machine
end

