-- ==== Sys2Proof/Machine/Format.lean ====
section
/-! DEFINITION. The two floating-point formats: fields, classes and exact values of a word
(42_fp_numerics.md rules R140 to R143). -/
namespace Sys2Proof.Machine

/-- binary32 or binary64 (42_fp_numerics.md rule R140). -/
inductive Fmt where
  | S
  | D
deriving DecidableEq, Repr

/-- w. -/
abbrev Fmt.width : Fmt → Nat
  | .S => 32
  | .D => 64

/-- f, the fraction bits. -/
def Fmt.fracBits : Fmt → Nat
  | .S => 23
  | .D => 52

/-- The number of exponent bits. -/
def Fmt.expBits : Fmt → Nat
  | .S => 8
  | .D => 11

/-- p = f + 1. -/
def Fmt.prec (F : Fmt) : Nat := F.fracBits + 1

/-- The exponent bias. -/
def Fmt.bias : Fmt → Nat
  | .S => 127
  | .D => 1023

/-- emin. -/
def Fmt.emin : Fmt → Int
  | .S => -126
  | .D => -1022

/-- emax. -/
def Fmt.emax : Fmt → Int
  | .S => 127
  | .D => 1023

/-- Emax, the all-ones exponent field. -/
def Fmt.expOnes (F : Fmt) : Nat := 2 ^ F.expBits - 1

/-- f − emin: every finite value of the format is an integer multiple of 2^−scale. -/
def Fmt.scale : Fmt → Nat
  | .S => 149
  | .D => 1074

/-! ### Fields -/

/-- x[w−1]. -/
def signOf (F : Fmt) (x : BitVec F.width) : Bool := x.msb

/-- E = x[w−2:f]. -/
def expOf (F : Fmt) (x : BitVec F.width) : Nat := x.toNat / 2 ^ F.fracBits % 2 ^ F.expBits

/-- T = x[f−1:0]. -/
def fracOf (F : Fmt) (x : BitVec F.width) : Nat := x.toNat % 2 ^ F.fracBits

/-- The word with the given sign, exponent field and fraction field. -/
def packFields (F : Fmt) (neg : Bool) (E T : Nat) : BitVec F.width :=
  BitVec.ofNat F.width ((if neg then 2 ^ (F.width - 1) else 0) + E * 2 ^ F.fracBits + T)

/-! ### Classes (42_fp_numerics.md rules R141, R142) -/

def isInf (F : Fmt) (x : BitVec F.width) : Bool := expOf F x == F.expOnes && fracOf F x == 0

def isNaN (F : Fmt) (x : BitVec F.width) : Bool := expOf F x == F.expOnes && fracOf F x != 0

/-- A NaN is quiet iff the top fraction bit is 1. -/
def isQNaN (F : Fmt) (x : BitVec F.width) : Bool := isNaN F x && (fracOf F x).testBit (F.fracBits - 1)

def isSNaN (F : Fmt) (x : BitVec F.width) : Bool := isNaN F x && !(fracOf F x).testBit (F.fracBits - 1)

def isZero (F : Fmt) (x : BitVec F.width) : Bool := expOf F x == 0 && fracOf F x == 0

def isSubnormal (F : Fmt) (x : BitVec F.width) : Bool := expOf F x == 0 && fracOf F x != 0

/-- Zero, subnormal or normal. -/
def isFinite (F : Fmt) (x : BitVec F.width) : Bool := expOf F x != F.expOnes

/-! ### Special words -/

/-- cNaN_F: 0x7FC00000, 0x7FF8000000000000 (42_fp_numerics.md rule R143). -/
def canonicalNaN : (F : Fmt) → BitVec F.width
  | .S => (0x7FC00000 : BitVec 32)
  | .D => (0x7FF8000000000000 : BitVec 64)

/-- ±∞. -/
def infinity (F : Fmt) (neg : Bool) : BitVec F.width := packFields F neg F.expOnes 0

/-- ±0. -/
def signedZero (F : Fmt) (neg : Bool) : BitVec F.width := packFields F neg 0 0

/-- ±MaxF, the largest finite magnitude. -/
def maxFinite (F : Fmt) (neg : Bool) : BitVec F.width := packFields F neg (F.expOnes - 1) (2 ^ F.fracBits - 1)

/-- The word with its sign bit flipped. -/
def negate (F : Fmt) (x : BitVec F.width) : BitVec F.width := x ^^^ BitVec.ofNat F.width (2 ^ (F.width - 1))

/-! ### Exact values (42_fp_numerics.md rule R141) -/

/-- The magnitude of a finite word in units of 2^(emin − f): T for E = 0, (2^f + T)·2^(E−1) otherwise. -/
def unitsOf (F : Fmt) (x : BitVec F.width) : Nat :=
  if expOf F x = 0 then fracOf F x else (2 ^ F.fracBits + fracOf F x) * 2 ^ (expOf F x - 1)

/-- An integer negated when `neg` holds. -/
def withSign (neg : Bool) (n : Nat) : Int := if neg then -(n : Int) else n

/-- The value of a finite word in units of 2^(emin − f). -/
def valueOf (F : Fmt) (x : BitVec F.width) : Int := withSign (signOf F x) (unitsOf F x)

/-- A key that orders the words other than NaNs by value, −∞ < finite < +∞ and −0 = +0
(45_fp_compare_class.md rules R240, R245): ±∞ stand at ±2^(emax+1), beyond every finite value. -/
def orderKey (F : Fmt) (x : BitVec F.width) : Int :=
  if isInf F x then withSign (signOf F x) (2 ^ (F.scale + F.bias + 1)) else valueOf F x

end Sys2Proof.Machine
end

