-- ==== Sys2Proof/Machine/Rounding.lean ====
section
/-! DEFINITION. Correct rounding of an exact real to an integer and to a format, with its flags
(42_fp_numerics.md rules R152 to R155). -/
namespace Sys2Proof.Machine

/-- The five rounding modes (42_fp_numerics.md rule R152). -/
inductive Mode where
  | rne
  | rtz
  | rdn
  | rup
  | rmm
deriving DecidableEq, Repr

/-- A positive exact real: the quotient n/d, or the square root of n/d. The rounding asks nothing of a real but its
place among multiples of half a quantum (42_fp_numerics.md rule R153). -/
inductive Mag where
  | ratio (n d : Nat)
  | root (n d : Nat)
deriving DecidableEq, Repr

/-- A fraction part in [0, 1): 0, below 1/2, 1/2, above 1/2. -/
inductive Frac where
  | zero
  | low
  | half
  | high
deriving DecidableEq, Repr

/-- The class of r/d for r < d. -/
def fracClass (r d : Nat) : Frac :=
  if r = 0 then .zero else if 2 * r < d then .low else if 2 * r = d then .half else .high

/-- n/d divided by 2^k, as a numerator and a denominator. -/
def scaleRatio (n d : Nat) (k : Int) : Nat × Nat :=
  if 0 ≤ k then (n, d * 2 ^ k.toNat) else (n * 2 ^ (-k).toNat, d)

/-- The largest r of `b` bits above the bits of `r` with r² ≤ n, bit by bit. -/
def sqrtBits (n : Nat) : Nat → Nat → Nat
  | 0, r => r
  | b + 1, r => sqrtBits n b (if (r + 2 ^ b) * (r + 2 ^ b) ≤ n then r + 2 ^ b else r)

/-- floor(√n). -/
def floorSqrt (n : Nat) : Nat := sqrtBits n (Nat.log2 n / 2 + 1) 0

/-- The place of √(n/d) between floor and floor + 1, by comparing squares. -/
def rootClass (n d q : Nat) : Frac :=
  if q * q * d = n then .zero
  else if 4 * n < (2 * q + 1) * (2 * q + 1) * d then .low
  else if 4 * n = (2 * q + 1) * (2 * q + 1) * d then .half
  else .high

/-- floor(a / 2^k) and the class of the fraction left. -/
def Mag.split (a : Mag) (k : Int) : Nat × Frac :=
  match a with
  | .ratio n d =>
    let t := scaleRatio n d k
    (t.1 / t.2, fracClass (t.1 % t.2) t.2)
  | .root n d =>
    let t := scaleRatio n d (2 * k)
    let q := floorSqrt (t.1 / t.2)
    (q, rootClass t.1 t.2 q)

/-- floor(log2(n/d)). -/
def ratioLog2 (n d : Nat) : Int :=
  let k : Int := (Nat.log2 n : Int) - (Nat.log2 d : Int)
  let t := scaleRatio n d k
  if t.2 ≤ t.1 then k else k - 1

/-- floor(log2 a). -/
def Mag.log2 : Mag → Int
  | .ratio n d => ratioLog2 n d
  | .root n d => ratioLog2 n d / 2

/-- `RoundInt(t, s, mode)` for t = n + fraction (42_fp_numerics.md rule R152). -/
def roundInt (n : Nat) (fr : Frac) (neg : Bool) (mode : Mode) : Nat :=
  match mode with
  | .rne =>
    match fr with
    | .high => n + 1
    | .half => if n % 2 = 0 then n else n + 1
    | _ => n
  | .rmm =>
    match fr with
    | .high | .half => n + 1
    | _ => n
  | .rtz => n
  | .rdn => if fr = .zero then n else if neg then n + 1 else n
  | .rup => if fr = .zero then n else if neg then n else n + 1

/-- m·2^k < 2^j. -/
def belowPow2 (m : Nat) (k j : Int) : Bool :=
  if k ≤ j then decide (m < 2 ^ (j - k).toNat) else decide (m = 0)

/-- The result when the rounded magnitude reaches 2^(emax+1) (42_fp_numerics.md rule R154). -/
def overflowResult (F : Fmt) (neg : Bool) (mode : Mode) : BitVec F.width :=
  match mode with
  | .rne | .rmm => infinity F neg
  | .rtz => maxFinite F neg
  | .rdn => if neg then infinity F neg else maxFinite F neg
  | .rup => if neg then maxFinite F neg else infinity F neg

/-- `encode_F(s, r)` for the representable magnitude r·2^q (42_fp_numerics.md rule R153). -/
def encodeMag (F : Fmt) (neg : Bool) (r : Nat) (q : Int) : BitVec F.width :=
  if r = 0 then signedZero F neg
  else if belowPow2 r q F.emin then packFields F neg 0 r
  else
    let e : Int := (Nat.log2 r : Int) + q
    let sig := scaleRatio r 1 ((Nat.log2 r : Int) - (F.fracBits : Int))
    packFields F neg (e + F.bias).toNat (sig.1 / sig.2 - 2 ^ F.fracBits)

/-- `round_F(v, rm)` for v = ±a, a > 0 (42_fp_numerics.md rules R153 to R155): one rounding of the exact value, tininess
detected after rounding. -/
def roundF (F : Fmt) (neg : Bool) (a : Mag) (mode : Mode) : BitVec F.width × FpFlags :=
  let e := a.log2
  let ku : Int := e - F.prec + 1
  let u := a.split ku
  let tiny := belowPow2 (roundInt u.1 u.2 neg mode) ku F.emin
  let q : Int := max e F.emin - F.prec + 1
  let t := a.split q
  let r := roundInt t.1 t.2 neg mode
  let inexact := decide (t.2 ≠ .zero)
  if belowPow2 r q (F.emax + 1) then
    (encodeMag F neg r q,
      FpFlag.ifTrue inexact FpFlag.nx ||| FpFlag.ifTrue (tiny && inexact) FpFlag.uf)
  else (overflowResult F neg mode, FpFlag.of ||| FpFlag.nx)

end Sys2Proof.Machine
end

