-- ==== Sys2Proof/Machine/Operands.lean ====
section
/-! DEFINITION. The operand forms: NaN boxing, rounding-mode resolution, immediates and effective addresses, feature
bits, and the finish helpers that write a result (42_fp_numerics.md rules R145 to R151, R160; 20_memory.md rule R51). -/
namespace Sys2Proof.Machine

/-! ### NaN boxing -/

/-- `unboxS` (42_fp_numerics.md rule R145). -/
def unboxS (r : Word) : BitVec 32 :=
  if r.extractLsb' 32 32 = 0xFFFFFFFF#32 then low32 r else canonicalNaN .S

/-- `boxS` (42_fp_numerics.md rule R146). -/
def boxS (v : BitVec 32) : Word := 0xFFFFFFFF#32 ++ v

/-- An FP operand of format F: unboxed for S, all 64 bits for D (42_fp_numerics.md rules R147, R148). -/
def State.readFp (s : State) : (F : Fmt) → FReg → BitVec F.width
  | .S, r => unboxS (s.readF r)
  | .D, r => s.readF r

/-- An FP result of format F: boxed for S, all 64 bits for D (42_fp_numerics.md rules R146, R147). -/
def State.writeFp (s : State) : (F : Fmt) → FReg → BitVec F.width → State
  | .S, r, v => s.writeF r (boxS v)
  | .D, r, v => s.writeF r v

/-! ### General-register operands at XLEN -/

/-- A two-operand operation at width XLEN. -/
def atXlen (rv : Rv) (op : (n : Nat) → BitVec n → BitVec n → BitVec n) (a b : Word) : Word :=
  match rv with
  | .rv32 => (op 32 (low32 a) (low32 b)).setWidth 64
  | .rv64 => op 64 a b

/-! ### Addresses (20_memory.md rule R51) -/

/-- ea = (x[rs1] + sext_XLEN(imm12)) mod 2^XLEN (92_eei_decisions.md D20). -/
def State.effectiveAddress (s : State) (rs1 : XReg) (imm : BitVec 12) : Word :=
  wrapX s.rv (s.readX rs1 + imm.signExtend 64)

/-! ### Legality (42_fp_numerics.md rules R149, R150) -/

/-- misa.F for S; misa.F and misa.D for D (92_eei_decisions.md D4). -/
def State.hasFormat (s : State) : Fmt → Bool
  | .S => s.misaF
  | .D => s.misaF && s.misaD

/-- A 3-bit code as a rounding mode, if it is one of 0 to 4. -/
def modeOf (b : BitVec 3) : Option Mode :=
  match b.toNat with
  | 0 => some .rne
  | 1 => some .rtz
  | 2 => some .rdn
  | 3 => some .rup
  | 4 => some .rmm
  | _ => none

/-- `rounding_mode_check(rm, frm)` (42_fp_numerics.md rule R150): the effective mode, none where it is illegal. -/
def roundingModeCheck (rm : Rm) (frm : BitVec 3) : Option Mode :=
  match rm with
  | .rne => some .rne
  | .rtz => some .rtz
  | .rdn => some .rdn
  | .rup => some .rup
  | .rmm => some .rmm
  | .reserved5 => none
  | .reserved6 => none
  | .dyn => modeOf frm

/-- Illegal unless the feature bits of the format are set. -/
def requireFormat (s : State) (F : Fmt) (k : Result) : Result := if s.hasFormat F then k else illegal s

/-- Illegal unless rv = RV64. -/
def requireRv64 (s : State) (k : Result) : Result := if s.rv = .rv64 then k else illegal s

/-- Illegal unless the rounding mode resolves; goes on with the effective mode. -/
def requireMode (s : State) (rm : Rm) (k : Mode → Result) : Result :=
  match roundingModeCheck rm ((s.readCsr .frm).setWidth 3) with
  | some mode => k mode
  | none => illegal s

/-- The legality of a row with an rm field (42_fp_numerics.md rule R151). -/
def requireFp (s : State) (F : Fmt) (rm : Rm) (k : Mode → Result) : Result :=
  requireFormat s F (requireMode s rm k)

/-! ### Finish helpers (42_fp_numerics.md rule R160; 40_m_multiply.md rule R100) -/

/-- `finish_rd_and_pc_incr`: x[rd] <- v, dropped if rd = x0; pc <- npc. -/
def finishX (s : State) (rd : XReg) (v : Word) : Result := .next (s.writeX rd v).retire

/-- `finish_grd_fflags_and_pc_plus_4`: the flags are written also when rd = x0 (92_eei_decisions.md D44). -/
def finishXFlags (s : State) (rd : XReg) (v : Word) (fl : FpFlags) : Result :=
  .next ((s.writeX rd v).accrue fl).retire

/-- `finish_frd_and_pc_plus_4`: f[rd] <- v, boxed for S; pc <- npc (90_conflicts.md C5). -/
def finishF (s : State) (F : Fmt) (rd : FReg) (v : BitVec F.width) : Result := .next (s.writeFp F rd v).retire

/-- `finish_frd_fflags_and_pc_plus_4`. -/
def finishFFlags (s : State) (F : Fmt) (rd : FReg) (r : BitVec F.width × FpFlags) : Result :=
  .next ((s.writeFp F rd r.1).accrue r.2).retire

end Sys2Proof.Machine
end

