-- ==== Sys2Proof/Machine/Multiply.lean ====
section
/-! DEFINITION. The integer multiplier (40_m_multiply.md rules R100 to R108). -/
namespace Sys2Proof.Machine

/-- MUL at width n: the low half of the signed product (rule R102). -/
def mulLow (n : Nat) (a b : BitVec n) : BitVec n := BitVec.ofInt n (a.toInt * b.toInt)

/-- MULH at width n: floor(p / 2^n) of the signed product (rule R103). -/
def mulHigh (n : Nat) (a b : BitVec n) : BitVec n := BitVec.ofInt n ((a.toInt * b.toInt).fdiv (2 ^ n : Nat))

/-- MULHSU at width n: signed a, unsigned b (rule R104). -/
def mulHighSU (n : Nat) (a b : BitVec n) : BitVec n := BitVec.ofInt n ((a.toInt * (b.toNat : Int)).fdiv (2 ^ n : Nat))

/-- MULHU at width n (rule R105). -/
def mulHighU (n : Nat) (a b : BitVec n) : BitVec n := BitVec.ofNat n (a.toNat * b.toNat / 2 ^ n)

/-- An OP form: x[rd] <- op(x[rs1], x[rs2]) at XLEN; misa is not read (rule R100, 92_eei_decisions.md D3). -/
def opX (op : (n : Nat) → BitVec n → BitVec n → BitVec n) (rd rs1 rs2 : XReg) (s : State) : Result :=
  finishX s rd (atXlen s.rv op (s.readX rs1) (s.readX rs2))

/-- An OP_32 form, RV64 only: the operation at width 32 on the low words, sign-extended (rule R101). -/
def op32 (op : (n : Nat) → BitVec n → BitVec n → BitVec n) (rd rs1 rs2 : XReg) (s : State) : Result :=
  requireRv64 s (finishX s rd (sext32 (op 32 (low32 (s.readX rs1)) (low32 (s.readX rs2)))))

/-- MUL (rule R102). -/
def execMul (rd rs1 rs2 : XReg) (s : State) : Result := opX mulLow rd rs1 rs2 s

/-- MULH (rule R103). -/
def execMulh (rd rs1 rs2 : XReg) (s : State) : Result := opX mulHigh rd rs1 rs2 s

/-- MULHSU (rule R104). -/
def execMulhsu (rd rs1 rs2 : XReg) (s : State) : Result := opX mulHighSU rd rs1 rs2 s

/-- MULHU (rule R105). -/
def execMulhu (rd rs1 rs2 : XReg) (s : State) : Result := opX mulHighU rd rs1 rs2 s

/-- MULW (rule R106). -/
def execMulw (rd rs1 rs2 : XReg) (s : State) : Result := op32 mulLow rd rs1 rs2 s

end Sys2Proof.Machine
end

