-- ==== Sys2Proof/Machine/Divide.lean ====
section
/-! DEFINITION. The integer divider (41_m_divide.md rules R120 to R129): no flag, no trap, defined corner results. -/
namespace Sys2Proof.Machine

/-- DIV at width n: −1 for a zero divisor, INT_MIN on overflow, else truncated toward zero (rule R120). -/
def divSigned (n : Nat) (a b : BitVec n) : BitVec n :=
  if b.toInt = 0 then BitVec.ofInt n (-1)
  else if a.toInt = -((2 ^ (n - 1) : Nat) : Int) ∧ b.toInt = -1 then a
  else BitVec.ofInt n (a.toInt.tdiv b.toInt)

/-- DIVU at width n (rule R121). -/
def divUnsigned (n : Nat) (a b : BitVec n) : BitVec n :=
  if b.toNat = 0 then BitVec.ofNat n (2 ^ n - 1) else BitVec.ofNat n (a.toNat / b.toNat)

/-- REM at width n: the dividend for a zero divisor, 0 on overflow, else n − d·tdiv(n, d) (rule R122). -/
def remSigned (n : Nat) (a b : BitVec n) : BitVec n :=
  if b.toInt = 0 then a
  else if a.toInt = -((2 ^ (n - 1) : Nat) : Int) ∧ b.toInt = -1 then 0
  else BitVec.ofInt n (a.toInt - b.toInt * a.toInt.tdiv b.toInt)

/-- REMU at width n (rule R123). -/
def remUnsigned (n : Nat) (a b : BitVec n) : BitVec n :=
  if b.toNat = 0 then a else BitVec.ofNat n (a.toNat % b.toNat)

/-- DIV (rule R120). -/
def execDiv (rd rs1 rs2 : XReg) (s : State) : Result := opX divSigned rd rs1 rs2 s

/-- DIVU (rule R121). -/
def execDivu (rd rs1 rs2 : XReg) (s : State) : Result := opX divUnsigned rd rs1 rs2 s

/-- REM (rule R122). -/
def execRem (rd rs1 rs2 : XReg) (s : State) : Result := opX remSigned rd rs1 rs2 s

/-- REMU (rule R123). -/
def execRemu (rd rs1 rs2 : XReg) (s : State) : Result := opX remUnsigned rd rs1 rs2 s

/-- DIVW (rule R124). -/
def execDivw (rd rs1 rs2 : XReg) (s : State) : Result := op32 divSigned rd rs1 rs2 s

/-- DIVUW (rule R125). -/
def execDivuw (rd rs1 rs2 : XReg) (s : State) : Result := op32 divUnsigned rd rs1 rs2 s

/-- REMW (rule R126). -/
def execRemw (rd rs1 rs2 : XReg) (s : State) : Result := op32 remSigned rd rs1 rs2 s

/-- REMUW (rule R127). -/
def execRemuw (rd rs1 rs2 : XReg) (s : State) : Result := op32 remUnsigned rd rs1 rs2 s

end Sys2Proof.Machine
end

