-- ==== Sys2Proof/Machine/FpFunctions.lean ====
section
/-! DEFINITION. The floating-point functions on words: arithmetic (43_fp_arith.md rules R180 to R184), conversions
(44_fp_convert.md rules R210 to R212), min/max, compare and classify (45_fp_compare_class.md rules R240, R245, R252),
sign injection (46_fp_sign_move.md rule R260). Each takes the exact value and rounds it at most once. -/
namespace Sys2Proof.Machine

/-- A word of format F with the flags it raises. -/
abbrev FpResult (F : Fmt) := BitVec F.width × FpFlags

/-- The canonical NaN with NV (42_fp_numerics.md rule R157). -/
def invalid (F : Fmt) : FpResult F := (canonicalNaN F, FpFlag.nv)

/-- A result that raises nothing. -/
def exact (F : Fmt) (x : BitVec F.width) : FpResult F := (x, FpFlag.none)

/-- `round_F(v/d, mode)` for a nonzero integer v (42_fp_numerics.md rule R153). -/
def roundRatio (F : Fmt) (v : Int) (d : Nat) (mode : Mode) : FpResult F :=
  roundF F (decide (v < 0)) (.ratio v.natAbs d) mode

/-- The zero of an exact sum of opposite values: −0 in RDN, +0 otherwise (42_fp_numerics.md rule R156). -/
def cancelledZero (F : Fmt) (mode : Mode) : FpResult F := exact F (signedZero F (decide (mode = .rdn)))

/-- `fp_add_F` (43_fp_arith.md rule R180). -/
def fpAdd (F : Fmt) (a b : BitVec F.width) (mode : Mode) : FpResult F :=
  if isSNaN F a || isSNaN F b then invalid F
  else if isNaN F a || isNaN F b then exact F (canonicalNaN F)
  else if isInf F a && isInf F b then
    if signOf F a = signOf F b then exact F a else invalid F
  else if isInf F a then exact F a
  else if isInf F b then exact F b
  else if valueOf F a + valueOf F b = 0 then
    if isZero F a && isZero F b && (signOf F a == signOf F b) then exact F a else cancelledZero F mode
  else roundRatio F (valueOf F a + valueOf F b) (2 ^ F.scale) mode

/-- `fp_sub_F`: x + (−y) (43_fp_arith.md rule R180). -/
def fpSub (F : Fmt) (a b : BitVec F.width) (mode : Mode) : FpResult F := fpAdd F a (negate F b) mode

/-- `fp_mul_F` (43_fp_arith.md rule R181). -/
def fpMul (F : Fmt) (a b : BitVec F.width) (mode : Mode) : FpResult F :=
  let s := signOf F a ^^ signOf F b
  if isSNaN F a || isSNaN F b then invalid F
  else if isNaN F a || isNaN F b then exact F (canonicalNaN F)
  else if (isInf F a && isZero F b) || (isZero F a && isInf F b) then invalid F
  else if isInf F a || isInf F b then exact F (infinity F s)
  else if valueOf F a * valueOf F b = 0 then exact F (signedZero F s)
  else roundRatio F (valueOf F a * valueOf F b) (2 ^ (2 * F.scale)) mode

/-- `fp_div_F` (43_fp_arith.md rule R182; DZ by 42_fp_numerics.md rule R158). -/
def fpDiv (F : Fmt) (a b : BitVec F.width) (mode : Mode) : FpResult F :=
  let s := signOf F a ^^ signOf F b
  if isSNaN F a || isSNaN F b then invalid F
  else if isNaN F a || isNaN F b then exact F (canonicalNaN F)
  else if isInf F a && isInf F b then invalid F
  else if isZero F a && isZero F b then invalid F
  else if isInf F a then exact F (infinity F s)
  else if isInf F b then exact F (signedZero F s)
  else if isZero F b then (infinity F s, FpFlag.dz)
  else if isZero F a then exact F (signedZero F s)
  else roundF F s (.ratio (unitsOf F a) (unitsOf F b)) mode

/-- `fp_sqrt_F` (43_fp_arith.md rule R183). -/
def fpSqrt (F : Fmt) (a : BitVec F.width) (mode : Mode) : FpResult F :=
  if isSNaN F a then invalid F
  else if isNaN F a then exact F (canonicalNaN F)
  else if isZero F a then exact F a
  else if signOf F a then invalid F
  else if isInf F a then exact F a
  else roundF F false (.root (unitsOf F a) (2 ^ F.scale)) mode

/-- `fp_fma_F`: round((−1)^np·a·b + (−1)^nc·c), one rounding (43_fp_arith.md rule R184). -/
def fpFma (F : Fmt) (a b c : BitVec F.width) (np nc : Bool) (mode : Mode) : FpResult F :=
  let ps := signOf F a ^^ signOf F b ^^ np
  let cs := signOf F c ^^ nc
  let product := withSign ps (unitsOf F a * unitsOf F b)
  let addend := withSign cs (unitsOf F c * 2 ^ F.scale)
  if (isInf F a && isZero F b) || (isZero F a && isInf F b) then invalid F
  else if isSNaN F a || isSNaN F b || isSNaN F c then invalid F
  else if isNaN F a || isNaN F b || isNaN F c then exact F (canonicalNaN F)
  else if (isInf F a || isInf F b) && isInf F c && (ps != cs) then invalid F
  else if isInf F a || isInf F b then exact F (infinity F ps)
  else if isInf F c then exact F (infinity F cs)
  else if product + addend = 0 then
    if (product == 0) && isZero F c && (ps == cs) then exact F (signedZero F ps) else cancelledZero F mode
  else roundRatio F (product + addend) (2 ^ (2 * F.scale)) mode

/-! ### Conversions -/

/-- The integer kinds of FCVT (30_encoding.md rule R80). -/
inductive IntKind where
  | w
  | wu
  | l
  | lu
deriving DecidableEq, Repr

/-- N. -/
def IntKind.bits : IntKind → Nat
  | .w | .wu => 32
  | .l | .lu => 64

/-- The target is a signed integer. -/
def IntKind.signed : IntKind → Bool
  | .w | .l => true
  | .wu | .lu => false

/-- The least integer of the kind. -/
def intMin (k : IntKind) : Int := if k.signed then -((2 ^ (k.bits - 1) : Nat) : Int) else 0

/-- The greatest integer of the kind. -/
def intMax (k : IntKind) : Int :=
  if k.signed then ((2 ^ (k.bits - 1) : Nat) : Int) - 1 else ((2 ^ k.bits : Nat) : Int) - 1

/-- x[rs1] as an integer of the kind: the W forms read the low 32 bits (44_fp_convert.md rule R211,
92_eei_decisions.md D22). -/
def intOfWord (k : IntKind) (v : Word) : Int :=
  match k with
  | .w => (low32 v).toInt
  | .wu => (low32 v).toNat
  | .l => v.toInt
  | .lu => v.toNat

/-- The GPR value of an integer of the kind: 32-bit results are sign-extended, also the unsigned ones
(92_eei_decisions.md D22). -/
def wordOfInt (k : IntKind) (n : Int) : Word :=
  match k with
  | .w | .wu => sext32 (BitVec.ofInt 32 n)
  | .l | .lu => BitVec.ofInt 64 n

/-- `f2i_F` (44_fp_convert.md rule R210): the range test is on the rounded integer. -/
def fpToInt (F : Fmt) (k : IntKind) (a : BitVec F.width) (mode : Mode) : Int × FpFlags :=
  if isNaN F a then (intMax k, FpFlag.nv)
  else if isInf F a then (if signOf F a then intMin k else intMax k, FpFlag.nv)
  else
    let t := Mag.split (.ratio (unitsOf F a) (2 ^ F.scale)) 0
    let n := withSign (signOf F a) (roundInt t.1 t.2 (signOf F a) mode)
    if n < intMin k then (intMin k, FpFlag.nv)
    else if intMax k < n then (intMax k, FpFlag.nv)
    else (n, FpFlag.ifTrue (decide (t.2 ≠ .zero)) FpFlag.nx)

/-- `i2f_F` (44_fp_convert.md rule R211). -/
def intToFp (F : Fmt) (n : Int) (mode : Mode) : FpResult F :=
  if n = 0 then exact F (signedZero F false) else roundRatio F n 1 mode

/-- `f2f` (44_fp_convert.md rule R212). -/
def fpToFp (Fs Fd : Fmt) (a : BitVec Fs.width) (mode : Mode) : FpResult Fd :=
  if isSNaN Fs a then invalid Fd
  else if isNaN Fs a then exact Fd (canonicalNaN Fd)
  else if isInf Fs a then exact Fd (infinity Fd (signOf Fs a))
  else if isZero Fs a then exact Fd (signedZero Fd (signOf Fs a))
  else roundF Fd (signOf Fs a) (.ratio (unitsOf Fs a) (2 ^ Fs.scale)) mode

/-! ### Min/max, compare, classify, sign injection -/

/-- `fminmax_F`, the six-step ladder (45_fp_compare_class.md rule R240). -/
def fpMinMax (F : Fmt) (isMax : Bool) (a b : BitVec F.width) : FpResult F :=
  if isSNaN F a && isSNaN F b then invalid F
  else if isSNaN F a then (b, FpFlag.nv)
  else if isSNaN F b then (a, FpFlag.nv)
  else if isQNaN F a && isQNaN F b then exact F (canonicalNaN F)
  else if isQNaN F a then exact F b
  else if isQNaN F b then exact F a
  else if isZero F a && isZero F b && (signOf F a != signOf F b) then exact F (signedZero F (!isMax))
  else if isMax then exact F (if orderKey F b ≤ orderKey F a then a else b)
  else exact F (if orderKey F a ≤ orderKey F b then a else b)

/-- The three comparisons (45_fp_compare_class.md rule R245). -/
inductive CmpOp where
  | eq
  | lt
  | le
deriving DecidableEq, Repr

/-- The comparison of two words that are no NaNs, on values. -/
def cmpValues (F : Fmt) (op : CmpOp) (a b : BitVec F.width) : Bool :=
  match op with
  | .eq => decide (orderKey F a = orderKey F b)
  | .lt => decide (orderKey F a < orderKey F b)
  | .le => decide (orderKey F a ≤ orderKey F b)

/-- `fcmp_F` (45_fp_compare_class.md rule R245): FEQ is quiet, FLT and FLE signal any NaN; the result is 0 or 1,
zero-extended (92_eei_decisions.md D39). -/
def fpCompare (F : Fmt) (op : CmpOp) (a b : BitVec F.width) : Word × FpFlags :=
  if isNaN F a || isNaN F b then
    (0, FpFlag.ifTrue (decide (op ≠ .eq) || isSNaN F a || isSNaN F b) FpFlag.nv)
  else (if cmpValues F op a b then 1 else 0, FpFlag.none)

/-- `fclass_F`: a one-hot mask of ten bits, zero-extended (45_fp_compare_class.md rule R252). -/
def fpClass (F : Fmt) (x : BitVec F.width) : Word :=
  if isInf F x then if signOf F x then 0x001 else 0x080
  else if isNaN F x then if isQNaN F x then 0x200 else 0x100
  else if isZero F x then if signOf F x then 0x008 else 0x010
  else if expOf F x = 0 then if signOf F x then 0x004 else 0x020
  else if signOf F x then 0x002 else 0x040

/-- The three sign injections (46_fp_sign_move.md rule R260). -/
inductive SgnjKind where
  | j
  | jn
  | jx
deriving DecidableEq, Repr

/-- The injected sign. -/
def injectedSign (kind : SgnjKind) (a b : Bool) : Bool :=
  match kind with
  | .j => b
  | .jn => !b
  | .jx => a ^^ b

/-- `fsgnj_F`: the exponent and fraction of a under the injected sign, on bits only (46_fp_sign_move.md rule R260). -/
def fpSgnj (F : Fmt) (kind : SgnjKind) (a b : BitVec F.width) : BitVec F.width :=
  if injectedSign kind (signOf F a) (signOf F b) = signOf F a then a else negate F a

end Sys2Proof.Machine
end

