-- ==== Sys2Proof/Machine/FpArith.lean ====
section
/-! DEFINITION. The FP adder, multiplier, divider, square root and fused multiply-add (43_fp_arith.md rules R185 to
R202), each through the common FP step of 42_fp_numerics.md rule R151. -/
namespace Sys2Proof.Machine

/-- A two-operand rounded operation of format F: legality, operands, one operation, result and flags (42_fp_numerics.md
rule R151). -/
def fpBinary (F : Fmt) (op : BitVec F.width → BitVec F.width → Mode → FpResult F) (rd rs1 rs2 : FReg) (rm : Rm)
    (s : State) : Result :=
  requireFp s F rm fun mode => finishFFlags s F rd (op (s.readFp F rs1) (s.readFp F rs2) mode)

/-- The square root of format F. -/
def fpRoot (F : Fmt) (rd rs1 : FReg) (rm : Rm) (s : State) : Result :=
  requireFp s F rm fun mode => finishFFlags s F rd (fpSqrt F (s.readFp F rs1) mode)

/-- A fused multiply-add of format F; `np` and `nc` negate the product and the addend (43_fp_arith.md rule R184). -/
def fpFused (F : Fmt) (np nc : Bool) (rd rs1 rs2 rs3 : FReg) (rm : Rm) (s : State) : Result :=
  requireFp s F rm fun mode =>
    finishFFlags s F rd (fpFma F (s.readFp F rs1) (s.readFp F rs2) (s.readFp F rs3) np nc mode)

/-- FADD.S (rule R185). -/
def execFaddS (rd rs1 rs2 : FReg) (rm : Rm) (s : State) : Result :=
  fpBinary .S (fun a b mode => fpAdd .S a b mode) rd rs1 rs2 rm s

/-- FSUB.S (rule R186). -/
def execFsubS (rd rs1 rs2 : FReg) (rm : Rm) (s : State) : Result :=
  fpBinary .S (fun a b mode => fpSub .S a b mode) rd rs1 rs2 rm s

/-- FMUL.S (rule R187). -/
def execFmulS (rd rs1 rs2 : FReg) (rm : Rm) (s : State) : Result :=
  fpBinary .S (fun a b mode => fpMul .S a b mode) rd rs1 rs2 rm s

/-- FDIV.S (rule R188). -/
def execFdivS (rd rs1 rs2 : FReg) (rm : Rm) (s : State) : Result :=
  fpBinary .S (fun a b mode => fpDiv .S a b mode) rd rs1 rs2 rm s

/-- FSQRT.S (rule R189). -/
def execFsqrtS (rd rs1 : FReg) (rm : Rm) (s : State) : Result :=
  fpRoot .S rd rs1 rm s

/-- FADD.D (rule R190). -/
def execFaddD (rd rs1 rs2 : FReg) (rm : Rm) (s : State) : Result :=
  fpBinary .D (fun a b mode => fpAdd .D a b mode) rd rs1 rs2 rm s

/-- FSUB.D (rule R191). -/
def execFsubD (rd rs1 rs2 : FReg) (rm : Rm) (s : State) : Result :=
  fpBinary .D (fun a b mode => fpSub .D a b mode) rd rs1 rs2 rm s

/-- FMUL.D (rule R192). -/
def execFmulD (rd rs1 rs2 : FReg) (rm : Rm) (s : State) : Result :=
  fpBinary .D (fun a b mode => fpMul .D a b mode) rd rs1 rs2 rm s

/-- FDIV.D (rule R193). -/
def execFdivD (rd rs1 rs2 : FReg) (rm : Rm) (s : State) : Result :=
  fpBinary .D (fun a b mode => fpDiv .D a b mode) rd rs1 rs2 rm s

/-- FSQRT.D (rule R194). -/
def execFsqrtD (rd rs1 : FReg) (rm : Rm) (s : State) : Result :=
  fpRoot .D rd rs1 rm s

/-- FMADD.S (rule R195). -/
def execFmaddS (rd rs1 rs2 rs3 : FReg) (rm : Rm) (s : State) : Result :=
  fpFused .S false false rd rs1 rs2 rs3 rm s

/-- FMSUB.S (rule R196). -/
def execFmsubS (rd rs1 rs2 rs3 : FReg) (rm : Rm) (s : State) : Result :=
  fpFused .S false true rd rs1 rs2 rs3 rm s

/-- FNMSUB.S (rule R197). -/
def execFnmsubS (rd rs1 rs2 rs3 : FReg) (rm : Rm) (s : State) : Result :=
  fpFused .S true false rd rs1 rs2 rs3 rm s

/-- FNMADD.S (rule R198). -/
def execFnmaddS (rd rs1 rs2 rs3 : FReg) (rm : Rm) (s : State) : Result :=
  fpFused .S true true rd rs1 rs2 rs3 rm s

/-- FMADD.D (rule R199). -/
def execFmaddD (rd rs1 rs2 rs3 : FReg) (rm : Rm) (s : State) : Result :=
  fpFused .D false false rd rs1 rs2 rs3 rm s

/-- FMSUB.D (rule R200). -/
def execFmsubD (rd rs1 rs2 rs3 : FReg) (rm : Rm) (s : State) : Result :=
  fpFused .D false true rd rs1 rs2 rs3 rm s

/-- FNMSUB.D (rule R201). -/
def execFnmsubD (rd rs1 rs2 rs3 : FReg) (rm : Rm) (s : State) : Result :=
  fpFused .D true false rd rs1 rs2 rs3 rm s

/-- FNMADD.D (rule R202). -/
def execFnmaddD (rd rs1 rs2 rs3 : FReg) (rm : Rm) (s : State) : Result :=
  fpFused .D true true rd rs1 rs2 rs3 rm s

end Sys2Proof.Machine
end

