-- ==== Sys2Proof/Machine/FpCompare.lean ====
section
/-! DEFINITION. Min/max, the comparator and the classifier (45_fp_compare_class.md rules R241 to R254). No rounding mode
is read. -/
namespace Sys2Proof.Machine

/-- FMIN or FMAX of format F. -/
def fminmax (F : Fmt) (isMax : Bool) (rd rs1 rs2 : FReg) (s : State) : Result :=
  requireFormat s F (finishFFlags s F rd (fpMinMax F isMax (s.readFp F rs1) (s.readFp F rs2)))

/-- A comparison of format F. -/
def fcmp (F : Fmt) (op : CmpOp) (rd : XReg) (rs1 rs2 : FReg) (s : State) : Result :=
  requireFormat s F
    (finishXFlags s rd (fpCompare F op (s.readFp F rs1) (s.readFp F rs2)).1
      (fpCompare F op (s.readFp F rs1) (s.readFp F rs2)).2)

/-- The classification of format F. -/
def fclass (F : Fmt) (rd : XReg) (rs1 : FReg) (s : State) : Result :=
  requireFormat s F (finishX s rd (fpClass F (s.readFp F rs1)))

/-- FMIN.S (rule R241). -/
def execFminS (rd rs1 rs2 : FReg) (s : State) : Result :=
  fminmax .S false rd rs1 rs2 s

/-- FMAX.S (rule R242). -/
def execFmaxS (rd rs1 rs2 : FReg) (s : State) : Result :=
  fminmax .S true rd rs1 rs2 s

/-- FMIN.D (rule R243). -/
def execFminD (rd rs1 rs2 : FReg) (s : State) : Result :=
  fminmax .D false rd rs1 rs2 s

/-- FMAX.D (rule R244). -/
def execFmaxD (rd rs1 rs2 : FReg) (s : State) : Result :=
  fminmax .D true rd rs1 rs2 s

/-- FEQ.S (rule R246). -/
def execFeqS (rd : XReg) (rs1 rs2 : FReg) (s : State) : Result :=
  fcmp .S .eq rd rs1 rs2 s

/-- FLT.S (rule R247). -/
def execFltS (rd : XReg) (rs1 rs2 : FReg) (s : State) : Result :=
  fcmp .S .lt rd rs1 rs2 s

/-- FLE.S (rule R248). -/
def execFleS (rd : XReg) (rs1 rs2 : FReg) (s : State) : Result :=
  fcmp .S .le rd rs1 rs2 s

/-- FEQ.D (rule R249). -/
def execFeqD (rd : XReg) (rs1 rs2 : FReg) (s : State) : Result :=
  fcmp .D .eq rd rs1 rs2 s

/-- FLT.D (rule R250). -/
def execFltD (rd : XReg) (rs1 rs2 : FReg) (s : State) : Result :=
  fcmp .D .lt rd rs1 rs2 s

/-- FLE.D (rule R251). -/
def execFleD (rd : XReg) (rs1 rs2 : FReg) (s : State) : Result :=
  fcmp .D .le rd rs1 rs2 s

/-- FCLASS.S (rule R253). -/
def execFclassS (rd : XReg) (rs1 : FReg) (s : State) : Result :=
  fclass .S rd rs1 s

/-- FCLASS.D (rule R254). -/
def execFclassD (rd : XReg) (rs1 : FReg) (s : State) : Result :=
  fclass .D rd rs1 s

end Sys2Proof.Machine
end

