-- ==== Sys2Proof/Machine/FpConvert.lean ====
section
/-! DEFINITION. The converters between integers and floats and between the two formats (44_fp_convert.md rules R213 to
R230). Every one has an rm field that is checked, also where the result is always exact (92_eei_decisions.md D6). -/
namespace Sys2Proof.Machine

/-- Float to integer: x[rd] gets the integer, dropped for x0, and the flags are written all the same
(92_eei_decisions.md D44). -/
def fcvtToInt (F : Fmt) (k : IntKind) (rd : XReg) (rs1 : FReg) (rm : Rm) (s : State) : Result :=
  requireFp s F rm fun mode =>
    finishXFlags s rd (wordOfInt k (fpToInt F k (s.readFp F rs1) mode).1) (fpToInt F k (s.readFp F rs1) mode).2

/-- Integer to float. -/
def fcvtFromInt (F : Fmt) (k : IntKind) (rd : FReg) (rs1 : XReg) (rm : Rm) (s : State) : Result :=
  requireFp s F rm fun mode => finishFFlags s F rd (intToFp F (intOfWord k (s.readX rs1)) mode)

/-- Float to float: both directions are D instructions (92_eei_decisions.md D4). -/
def fcvtFormats (Fs Fd : Fmt) (rd rs1 : FReg) (rm : Rm) (s : State) : Result :=
  requireFp s .D rm fun mode => finishFFlags s Fd rd (fpToFp Fs Fd (s.readFp Fs rs1) mode)

/-- FCVT.W.S (rule R213). -/
def execFcvtWS (rd : XReg) (rs1 : FReg) (rm : Rm) (s : State) : Result :=
  fcvtToInt .S .w rd rs1 rm s

/-- FCVT.WU.S (rule R214). -/
def execFcvtWUS (rd : XReg) (rs1 : FReg) (rm : Rm) (s : State) : Result :=
  fcvtToInt .S .wu rd rs1 rm s

/-- FCVT.L.S (rule R215). -/
def execFcvtLS (rd : XReg) (rs1 : FReg) (rm : Rm) (s : State) : Result :=
  requireRv64 s (fcvtToInt .S .l rd rs1 rm s)

/-- FCVT.LU.S (rule R216). -/
def execFcvtLUS (rd : XReg) (rs1 : FReg) (rm : Rm) (s : State) : Result :=
  requireRv64 s (fcvtToInt .S .lu rd rs1 rm s)

/-- FCVT.S.W (rule R217). -/
def execFcvtSW (rd : FReg) (rs1 : XReg) (rm : Rm) (s : State) : Result :=
  fcvtFromInt .S .w rd rs1 rm s

/-- FCVT.S.WU (rule R218). -/
def execFcvtSWU (rd : FReg) (rs1 : XReg) (rm : Rm) (s : State) : Result :=
  fcvtFromInt .S .wu rd rs1 rm s

/-- FCVT.S.L (rule R219). -/
def execFcvtSL (rd : FReg) (rs1 : XReg) (rm : Rm) (s : State) : Result :=
  requireRv64 s (fcvtFromInt .S .l rd rs1 rm s)

/-- FCVT.S.LU (rule R220). -/
def execFcvtSLU (rd : FReg) (rs1 : XReg) (rm : Rm) (s : State) : Result :=
  requireRv64 s (fcvtFromInt .S .lu rd rs1 rm s)

/-- FCVT.W.D (rule R221). -/
def execFcvtWD (rd : XReg) (rs1 : FReg) (rm : Rm) (s : State) : Result :=
  fcvtToInt .D .w rd rs1 rm s

/-- FCVT.WU.D (rule R222). -/
def execFcvtWUD (rd : XReg) (rs1 : FReg) (rm : Rm) (s : State) : Result :=
  fcvtToInt .D .wu rd rs1 rm s

/-- FCVT.L.D (rule R223). -/
def execFcvtLD (rd : XReg) (rs1 : FReg) (rm : Rm) (s : State) : Result :=
  requireRv64 s (fcvtToInt .D .l rd rs1 rm s)

/-- FCVT.LU.D (rule R224). -/
def execFcvtLUD (rd : XReg) (rs1 : FReg) (rm : Rm) (s : State) : Result :=
  requireRv64 s (fcvtToInt .D .lu rd rs1 rm s)

/-- FCVT.D.W (rule R225). -/
def execFcvtDW (rd : FReg) (rs1 : XReg) (rm : Rm) (s : State) : Result :=
  fcvtFromInt .D .w rd rs1 rm s

/-- FCVT.D.WU (rule R226). -/
def execFcvtDWU (rd : FReg) (rs1 : XReg) (rm : Rm) (s : State) : Result :=
  fcvtFromInt .D .wu rd rs1 rm s

/-- FCVT.D.L (rule R227). -/
def execFcvtDL (rd : FReg) (rs1 : XReg) (rm : Rm) (s : State) : Result :=
  requireRv64 s (fcvtFromInt .D .l rd rs1 rm s)

/-- FCVT.D.LU (rule R228). -/
def execFcvtDLU (rd : FReg) (rs1 : XReg) (rm : Rm) (s : State) : Result :=
  requireRv64 s (fcvtFromInt .D .lu rd rs1 rm s)

/-- FCVT.S.D (rule R229). -/
def execFcvtSD (rd rs1 : FReg) (rm : Rm) (s : State) : Result :=
  fcvtFormats .D .S rd rs1 rm s

/-- FCVT.D.S (rule R230). -/
def execFcvtDS (rd rs1 : FReg) (rm : Rm) (s : State) : Result :=
  fcvtFormats .S .D rd rs1 rm s

end Sys2Proof.Machine
end

