-- ==== Sys2Proof/Machine/FpMemory.lean ====
section
/-! DEFINITION. FLW, FLD, FSW, FSD (47_fp_load_store.md rules R280 to R285). Legality comes before any host call
(60_exceptions.md rule R307); rm, frm and fflags are not read. -/
namespace Sys2Proof.Machine

/-- FLW (rule R280): the loaded word is boxed, unchecked. -/
def execFlw (rd : FReg) (rs1 : XReg) (imm : BitVec 12) (s : State) : Result :=
  requireFormat s .S
    (loadThen s .word (s.effectiveAddress rs1 imm) fun v s' => finishF s' .S rd (low32 v))

/-- FLD (rule R281), on RV32 and RV64. -/
def execFld (rd : FReg) (rs1 : XReg) (imm : BitVec 12) (s : State) : Result :=
  requireFormat s .D
    (loadThen s .double (s.effectiveAddress rs1 imm) fun v s' => finishF s' .D rd v)

/-- FSW (rule R282): the raw low word, not unboxed (92_eei_decisions.md D12). -/
def execFsw (rs2 : FReg) (rs1 : XReg) (imm : BitVec 12) (s : State) : Result :=
  requireFormat s .S (storeThen s .word (s.effectiveAddress rs1 imm) ((low32 (s.readF rs2)).setWidth 64))

/-- FSD (rule R283): all 64 bits. -/
def execFsd (rs2 : FReg) (rs1 : XReg) (imm : BitVec 12) (s : State) : Result :=
  requireFormat s .D (storeThen s .double (s.effectiveAddress rs1 imm) (s.readF rs2))

end Sys2Proof.Machine
end

