-- ==== Sys2Proof/Machine/FpMove.lean ====
section
/-! DEFINITION. Sign injection and the raw moves between the register files (46_fp_sign_move.md rules R261 to R270). No
flag is raised and fflags is not written. -/
namespace Sys2Proof.Machine

/-- A sign injection of format F. -/
def fsgnj (F : Fmt) (kind : SgnjKind) (rd rs1 rs2 : FReg) (s : State) : Result :=
  requireFormat s F (finishF s F rd (fpSgnj F kind (s.readFp F rs1) (s.readFp F rs2)))

/-- FSGNJ.S (rule R261). -/
def execFsgnjS (rd rs1 rs2 : FReg) (s : State) : Result :=
  fsgnj .S .j rd rs1 rs2 s

/-- FSGNJN.S (rule R262). -/
def execFsgnjnS (rd rs1 rs2 : FReg) (s : State) : Result :=
  fsgnj .S .jn rd rs1 rs2 s

/-- FSGNJX.S (rule R263). -/
def execFsgnjxS (rd rs1 rs2 : FReg) (s : State) : Result :=
  fsgnj .S .jx rd rs1 rs2 s

/-- FSGNJ.D (rule R264). -/
def execFsgnjD (rd rs1 rs2 : FReg) (s : State) : Result :=
  fsgnj .D .j rd rs1 rs2 s

/-- FSGNJN.D (rule R265). -/
def execFsgnjnD (rd rs1 rs2 : FReg) (s : State) : Result :=
  fsgnj .D .jn rd rs1 rs2 s

/-- FSGNJX.D (rule R266). -/
def execFsgnjxD (rd rs1 rs2 : FReg) (s : State) : Result :=
  fsgnj .D .jx rd rs1 rs2 s

/-- FMV.X.W (rule R267): the low word is taken raw, without the unbox check (92_eei_decisions.md D12). -/
def execFmvXW (rd : XReg) (rs1 : FReg) (s : State) : Result :=
  requireFormat s .S (finishX s rd (sext32 (low32 (s.readF rs1))))

/-- FMV.W.X (rule R268): higher source bits are ignored (92_eei_decisions.md D40). -/
def execFmvWX (rd : FReg) (rs1 : XReg) (s : State) : Result :=
  requireFormat s .S (finishF s .S rd (low32 (s.readX rs1)))

/-- FMV.X.D (rule R269): RV64 only. -/
def execFmvXD (rd : XReg) (rs1 : FReg) (s : State) : Result :=
  requireRv64 s (requireFormat s .D (finishX s rd (s.readF rs1)))

/-- FMV.D.X (rule R270): RV64 only. -/
def execFmvDX (rd : FReg) (rs1 : XReg) (s : State) : Result :=
  requireRv64 s (requireFormat s .D (finishF s .D rd (s.readX rs1)))

end Sys2Proof.Machine
end

