-- ==== Sys2Proof/Machine/Step.lean ====
section
/-! DEFINITION. One step is one transaction `(legal, m') = step(m, inst, is_C)` (00_scope.md rules R3 to R5): the block
takes the next word its caller offers, decodes it and runs it. The block fetches nothing (20_memory.md rule R64). -/
namespace Sys2Proof.Machine

/-- The state in which a transaction on the offer `o` runs: the word is taken and its `is_C` is at hand. -/
def State.begin (s : State) (o : Offer) (rest : List Offer) : State := { s with offers := rest, isC := o.isC }

/-- The transaction on one word: an instruction of the block runs; for any other word no family answers, `legal` is false
and nothing else changes (00_scope.md rules R4, R5; 30_encoding.md rule R82). -/
def transact (w : InstWord) (s : State) : Result :=
  match decode w with
  | .ok i => exec i s
  | .error _ => illegal s

/-- One step: one transaction, on the caller's next word. -/
def step (s : State) : Host.Outcome State Fault Refusal :=
  match s.offers with
  | [] => .refused .noWordOffered
  | o :: rest => transact o.word (s.begin o rest)

/-- `s` with the word `w` offered next, expanded from no compressed form: the caller's hand-over (log entry 1). -/
def State.withFetchWord (s : State) (nbits w : Nat) : State :=
  { s with offers := ⟨BitVec.ofNat 32 (w % 2 ^ nbits), false⟩ :: s.offers }

end Sys2Proof.Machine
end

