-- ==== Sys2Proof/Safety.lean ====
section
/-! DEFINITION. The terms claims are stated in: legality as the opcode table lists it, what a completed transaction leaves
changed and unchanged, the exact value of a floating-point word, correct rounding, and the machine's invariant. -/
namespace Sys2Proof.Machine

/-! ### What an instruction needs and writes (opcode_table.json, 60_exceptions.md rule R301) -/

/-- The format whose feature bits an instruction needs; none for the M instructions. -/
def needsFormat : Instr → Option Fmt
  | .mul _ _ _ => none
  | .mulh _ _ _ => none
  | .mulhsu _ _ _ => none
  | .mulhu _ _ _ => none
  | .div _ _ _ => none
  | .divu _ _ _ => none
  | .rem _ _ _ => none
  | .remu _ _ _ => none
  | .mulw _ _ _ => none
  | .divw _ _ _ => none
  | .divuw _ _ _ => none
  | .remw _ _ _ => none
  | .remuw _ _ _ => none
  | .flw _ _ _ => some .S
  | .fld _ _ _ => some .D
  | .fsw _ _ _ => some .S
  | .fsd _ _ _ => some .D
  | .fmaddS _ _ _ _ _ => some .S
  | .fmsubS _ _ _ _ _ => some .S
  | .fnmsubS _ _ _ _ _ => some .S
  | .fnmaddS _ _ _ _ _ => some .S
  | .fmaddD _ _ _ _ _ => some .D
  | .fmsubD _ _ _ _ _ => some .D
  | .fnmsubD _ _ _ _ _ => some .D
  | .fnmaddD _ _ _ _ _ => some .D
  | .faddS _ _ _ _ => some .S
  | .fsubS _ _ _ _ => some .S
  | .fmulS _ _ _ _ => some .S
  | .fdivS _ _ _ _ => some .S
  | .fsqrtS _ _ _ => some .S
  | .faddD _ _ _ _ => some .D
  | .fsubD _ _ _ _ => some .D
  | .fmulD _ _ _ _ => some .D
  | .fdivD _ _ _ _ => some .D
  | .fsqrtD _ _ _ => some .D
  | .fcvtWS _ _ _ => some .S
  | .fcvtWUS _ _ _ => some .S
  | .fcvtLS _ _ _ => some .S
  | .fcvtLUS _ _ _ => some .S
  | .fcvtSW _ _ _ => some .S
  | .fcvtSWU _ _ _ => some .S
  | .fcvtSL _ _ _ => some .S
  | .fcvtSLU _ _ _ => some .S
  | .fcvtWD _ _ _ => some .D
  | .fcvtWUD _ _ _ => some .D
  | .fcvtLD _ _ _ => some .D
  | .fcvtLUD _ _ _ => some .D
  | .fcvtDW _ _ _ => some .D
  | .fcvtDWU _ _ _ => some .D
  | .fcvtDL _ _ _ => some .D
  | .fcvtDLU _ _ _ => some .D
  | .fcvtSD _ _ _ => some .D
  | .fcvtDS _ _ _ => some .D
  | .fminS _ _ _ => some .S
  | .fmaxS _ _ _ => some .S
  | .fminD _ _ _ => some .D
  | .fmaxD _ _ _ => some .D
  | .feqS _ _ _ => some .S
  | .fltS _ _ _ => some .S
  | .fleS _ _ _ => some .S
  | .feqD _ _ _ => some .D
  | .fltD _ _ _ => some .D
  | .fleD _ _ _ => some .D
  | .fclassS _ _ => some .S
  | .fclassD _ _ => some .D
  | .fsgnjS _ _ _ => some .S
  | .fsgnjnS _ _ _ => some .S
  | .fsgnjxS _ _ _ => some .S
  | .fsgnjD _ _ _ => some .D
  | .fsgnjnD _ _ _ => some .D
  | .fsgnjxD _ _ _ => some .D
  | .fmvXW _ _ => some .S
  | .fmvWX _ _ => some .S
  | .fmvXD _ _ => some .D
  | .fmvDX _ _ => some .D

/-- The instruction exists on RV64 only. -/
def needsRv64 : Instr → Bool
  | .mul _ _ _ => false
  | .mulh _ _ _ => false
  | .mulhsu _ _ _ => false
  | .mulhu _ _ _ => false
  | .div _ _ _ => false
  | .divu _ _ _ => false
  | .rem _ _ _ => false
  | .remu _ _ _ => false
  | .mulw _ _ _ => true
  | .divw _ _ _ => true
  | .divuw _ _ _ => true
  | .remw _ _ _ => true
  | .remuw _ _ _ => true
  | .flw _ _ _ => false
  | .fld _ _ _ => false
  | .fsw _ _ _ => false
  | .fsd _ _ _ => false
  | .fmaddS _ _ _ _ _ => false
  | .fmsubS _ _ _ _ _ => false
  | .fnmsubS _ _ _ _ _ => false
  | .fnmaddS _ _ _ _ _ => false
  | .fmaddD _ _ _ _ _ => false
  | .fmsubD _ _ _ _ _ => false
  | .fnmsubD _ _ _ _ _ => false
  | .fnmaddD _ _ _ _ _ => false
  | .faddS _ _ _ _ => false
  | .fsubS _ _ _ _ => false
  | .fmulS _ _ _ _ => false
  | .fdivS _ _ _ _ => false
  | .fsqrtS _ _ _ => false
  | .faddD _ _ _ _ => false
  | .fsubD _ _ _ _ => false
  | .fmulD _ _ _ _ => false
  | .fdivD _ _ _ _ => false
  | .fsqrtD _ _ _ => false
  | .fcvtWS _ _ _ => false
  | .fcvtWUS _ _ _ => false
  | .fcvtLS _ _ _ => true
  | .fcvtLUS _ _ _ => true
  | .fcvtSW _ _ _ => false
  | .fcvtSWU _ _ _ => false
  | .fcvtSL _ _ _ => true
  | .fcvtSLU _ _ _ => true
  | .fcvtWD _ _ _ => false
  | .fcvtWUD _ _ _ => false
  | .fcvtLD _ _ _ => true
  | .fcvtLUD _ _ _ => true
  | .fcvtDW _ _ _ => false
  | .fcvtDWU _ _ _ => false
  | .fcvtDL _ _ _ => true
  | .fcvtDLU _ _ _ => true
  | .fcvtSD _ _ _ => false
  | .fcvtDS _ _ _ => false
  | .fminS _ _ _ => false
  | .fmaxS _ _ _ => false
  | .fminD _ _ _ => false
  | .fmaxD _ _ _ => false
  | .feqS _ _ _ => false
  | .fltS _ _ _ => false
  | .fleS _ _ _ => false
  | .feqD _ _ _ => false
  | .fltD _ _ _ => false
  | .fleD _ _ _ => false
  | .fclassS _ _ => false
  | .fclassD _ _ => false
  | .fsgnjS _ _ _ => false
  | .fsgnjnS _ _ _ => false
  | .fsgnjxS _ _ _ => false
  | .fsgnjD _ _ _ => false
  | .fsgnjnD _ _ _ => false
  | .fsgnjxD _ _ _ => false
  | .fmvXW _ _ => false
  | .fmvWX _ _ => false
  | .fmvXD _ _ => true
  | .fmvDX _ _ => true

/-- A register an instruction writes. -/
inductive Dest where
  | x (r : XReg)
  | f (F : Fmt) (r : FReg)
  | none
deriving DecidableEq, Repr

/-- The destination register, with the format of an FPR destination (10_state.md rules R22, R26). -/
def destOf : Instr → Dest
  | .mul rd _ _ => .x rd
  | .mulh rd _ _ => .x rd
  | .mulhsu rd _ _ => .x rd
  | .mulhu rd _ _ => .x rd
  | .div rd _ _ => .x rd
  | .divu rd _ _ => .x rd
  | .rem rd _ _ => .x rd
  | .remu rd _ _ => .x rd
  | .mulw rd _ _ => .x rd
  | .divw rd _ _ => .x rd
  | .divuw rd _ _ => .x rd
  | .remw rd _ _ => .x rd
  | .remuw rd _ _ => .x rd
  | .flw rd _ _ => .f .S rd
  | .fld rd _ _ => .f .D rd
  | .fsw _ _ _ => .none
  | .fsd _ _ _ => .none
  | .fmaddS rd _ _ _ _ => .f .S rd
  | .fmsubS rd _ _ _ _ => .f .S rd
  | .fnmsubS rd _ _ _ _ => .f .S rd
  | .fnmaddS rd _ _ _ _ => .f .S rd
  | .fmaddD rd _ _ _ _ => .f .D rd
  | .fmsubD rd _ _ _ _ => .f .D rd
  | .fnmsubD rd _ _ _ _ => .f .D rd
  | .fnmaddD rd _ _ _ _ => .f .D rd
  | .faddS rd _ _ _ => .f .S rd
  | .fsubS rd _ _ _ => .f .S rd
  | .fmulS rd _ _ _ => .f .S rd
  | .fdivS rd _ _ _ => .f .S rd
  | .fsqrtS rd _ _ => .f .S rd
  | .faddD rd _ _ _ => .f .D rd
  | .fsubD rd _ _ _ => .f .D rd
  | .fmulD rd _ _ _ => .f .D rd
  | .fdivD rd _ _ _ => .f .D rd
  | .fsqrtD rd _ _ => .f .D rd
  | .fcvtWS rd _ _ => .x rd
  | .fcvtWUS rd _ _ => .x rd
  | .fcvtLS rd _ _ => .x rd
  | .fcvtLUS rd _ _ => .x rd
  | .fcvtSW rd _ _ => .f .S rd
  | .fcvtSWU rd _ _ => .f .S rd
  | .fcvtSL rd _ _ => .f .S rd
  | .fcvtSLU rd _ _ => .f .S rd
  | .fcvtWD rd _ _ => .x rd
  | .fcvtWUD rd _ _ => .x rd
  | .fcvtLD rd _ _ => .x rd
  | .fcvtLUD rd _ _ => .x rd
  | .fcvtDW rd _ _ => .f .D rd
  | .fcvtDWU rd _ _ => .f .D rd
  | .fcvtDL rd _ _ => .f .D rd
  | .fcvtDLU rd _ _ => .f .D rd
  | .fcvtSD rd _ _ => .f .S rd
  | .fcvtDS rd _ _ => .f .D rd
  | .fminS rd _ _ => .f .S rd
  | .fmaxS rd _ _ => .f .S rd
  | .fminD rd _ _ => .f .D rd
  | .fmaxD rd _ _ => .f .D rd
  | .feqS rd _ _ => .x rd
  | .fltS rd _ _ => .x rd
  | .fleS rd _ _ => .x rd
  | .feqD rd _ _ => .x rd
  | .fltD rd _ _ => .x rd
  | .fleD rd _ _ => .x rd
  | .fclassS rd _ => .x rd
  | .fclassD rd _ => .x rd
  | .fsgnjS rd _ _ => .f .S rd
  | .fsgnjnS rd _ _ => .f .S rd
  | .fsgnjxS rd _ _ => .f .S rd
  | .fsgnjD rd _ _ => .f .D rd
  | .fsgnjnD rd _ _ => .f .D rd
  | .fsgnjxD rd _ _ => .f .D rd
  | .fmvXW rd _ => .x rd
  | .fmvWX rd _ => .f .S rd
  | .fmvXD rd _ => .x rd
  | .fmvDX rd _ => .f .D rd

/-- FLW, FLD, FSW, FSD. -/
def isMemory : Instr → Bool
  | .mul _ _ _ => false
  | .mulh _ _ _ => false
  | .mulhsu _ _ _ => false
  | .mulhu _ _ _ => false
  | .div _ _ _ => false
  | .divu _ _ _ => false
  | .rem _ _ _ => false
  | .remu _ _ _ => false
  | .mulw _ _ _ => false
  | .divw _ _ _ => false
  | .divuw _ _ _ => false
  | .remw _ _ _ => false
  | .remuw _ _ _ => false
  | .flw _ _ _ => true
  | .fld _ _ _ => true
  | .fsw _ _ _ => true
  | .fsd _ _ _ => true
  | .fmaddS _ _ _ _ _ => false
  | .fmsubS _ _ _ _ _ => false
  | .fnmsubS _ _ _ _ _ => false
  | .fnmaddS _ _ _ _ _ => false
  | .fmaddD _ _ _ _ _ => false
  | .fmsubD _ _ _ _ _ => false
  | .fnmsubD _ _ _ _ _ => false
  | .fnmaddD _ _ _ _ _ => false
  | .faddS _ _ _ _ => false
  | .fsubS _ _ _ _ => false
  | .fmulS _ _ _ _ => false
  | .fdivS _ _ _ _ => false
  | .fsqrtS _ _ _ => false
  | .faddD _ _ _ _ => false
  | .fsubD _ _ _ _ => false
  | .fmulD _ _ _ _ => false
  | .fdivD _ _ _ _ => false
  | .fsqrtD _ _ _ => false
  | .fcvtWS _ _ _ => false
  | .fcvtWUS _ _ _ => false
  | .fcvtLS _ _ _ => false
  | .fcvtLUS _ _ _ => false
  | .fcvtSW _ _ _ => false
  | .fcvtSWU _ _ _ => false
  | .fcvtSL _ _ _ => false
  | .fcvtSLU _ _ _ => false
  | .fcvtWD _ _ _ => false
  | .fcvtWUD _ _ _ => false
  | .fcvtLD _ _ _ => false
  | .fcvtLUD _ _ _ => false
  | .fcvtDW _ _ _ => false
  | .fcvtDWU _ _ _ => false
  | .fcvtDL _ _ _ => false
  | .fcvtDLU _ _ _ => false
  | .fcvtSD _ _ _ => false
  | .fcvtDS _ _ _ => false
  | .fminS _ _ _ => false
  | .fmaxS _ _ _ => false
  | .fminD _ _ _ => false
  | .fmaxD _ _ _ => false
  | .feqS _ _ _ => false
  | .fltS _ _ _ => false
  | .fleS _ _ _ => false
  | .feqD _ _ _ => false
  | .fltD _ _ _ => false
  | .fleD _ _ _ => false
  | .fclassS _ _ => false
  | .fclassD _ _ => false
  | .fsgnjS _ _ _ => false
  | .fsgnjnS _ _ _ => false
  | .fsgnjxS _ _ _ => false
  | .fsgnjD _ _ _ => false
  | .fsgnjnD _ _ _ => false
  | .fsgnjxD _ _ _ => false
  | .fmvXW _ _ => false
  | .fmvWX _ _ => false
  | .fmvXD _ _ => false
  | .fmvDX _ _ => false

/-- The rounding-mode field is legal: a static mode, or DYN with frm in 0 to 4 (42_fp_numerics.md rule R150). -/
def rmLegal (rm : Rm) (frm : BitVec 3) : Bool :=
  match rm with
  | .dyn => decide (frm.toNat ≤ 4)
  | other => other.wellFormed

/-- Every legality condition of 60_exceptions.md rule R301 beyond the word matching its row. -/
def legalIn (i : Instr) (s : State) : Bool :=
  (match needsFormat i with
    | none => true
    | some .S => s.misa.getLsbD 5
    | some .D => s.misa.getLsbD 5 && s.misa.getLsbD 3) &&
  (!needsRv64 i || decide (s.rv = .rv64)) &&
  (match i.rmField with
    | none => true
    | some rm => rmLegal rm s.frm)

/-! ### Integers of a register (00_scope.md rule R12) -/

/-- `u_XLEN(x[r])`. -/
def unsignedX (s : State) (r : XReg) : Int := (s.readX r).toNat

/-- `s_XLEN(x[r])` = u − 2^XLEN·x[r][XLEN−1]. -/
def signedX (s : State) (r : XReg) : Int :=
  unsignedX s r - if (s.readX r).getLsbD (s.rv.xlen - 1) then ((2 ^ s.rv.xlen : Nat) : Int) else 0

/-- `u_32(x[r][31:0])`. -/
def unsigned32 (s : State) (r : XReg) : Int := ((s.readX r).toNat % 2 ^ 32 : Nat)

/-- `s_32(x[r][31:0])`. -/
def signed32 (s : State) (r : XReg) : Int :=
  unsigned32 s r - if (s.readX r).getLsbD 31 then ((2 ^ 32 : Nat) : Int) else 0

/-- `w_N(i)`, zero-extended to the held width. -/
def wordN (N : Nat) (i : Int) : Word := BitVec.ofNat 64 (i % ((2 ^ N : Nat) : Int)).toNat

/-- `w_XLEN(i)`. -/
def wordX (s : State) (i : Int) : Word := wordN s.rv.xlen i

/-- `sext_64(w_32(i))`: bit 31 fills the upper half (00_scope.md rule R13). -/
def sextWord (i : Int) : Word :=
  let low := (i % ((2 ^ 32 : Nat) : Int)).toNat
  BitVec.ofNat 64 (if 2 ^ 31 ≤ low then low + (2 ^ 64 - 2 ^ 32) else low)

/-! ### What a transaction leaves -/

/-- The elements no instruction writes, and the trap record. -/
structure SameRest (s t : State) : Prop where
  rv : t.rv = s.rv
  misa : t.misa = s.misa
  frm : t.frm = s.frm
  mcause : t.mcause = s.mcause
  mtval : t.mtval = s.mtval
  host : t.host = s.host
  offers : t.offers = s.offers
  isC : t.isC = s.isC

/-- Every byte of memory reads as before. -/
def SameMemory (s t : State) : Prop := ∀ a, t.mem.read a = s.mem.read a

/-- Every general register reads as before. -/
def SameX (s t : State) : Prop := ∀ r, t.readX r = s.readX r

/-- Every floating-point register reads as before. -/
def SameF (s t : State) : Prop := ∀ r, t.readF r = s.readF r

/-- pc <- (pc + (is_C ? 2 : 4)) mod 2^XLEN (10_state.md rule R31). -/
def PcAdvanced (s t : State) : Prop :=
  t.readPc.toNat = (s.readPc.toNat + if s.isC then 2 else 4) % 2 ^ s.rv.xlen

/-- A completed transaction whose destination is x[rd]: the value v unless rd = x0, the flags fl OR-ed in, the PC
advanced, and nothing else changed. -/
structure WroteX (s t : State) (rd : XReg) (v : Word) (fl : FpFlags) : Prop where
  legal : t.legal = true
  pc : PcAdvanced s t
  dest : rd ≠ 0 → t.readX rd = v
  zero : t.readX 0 = 0
  otherX : ∀ r, r ≠ rd → t.readX r = s.readX r
  f : SameF s t
  fflags : t.fflags = s.fflags ||| fl
  memory : SameMemory s t
  rest : SameRest s t

/-- A completed transaction whose destination is f[rd], the 64-bit value v. -/
structure WroteF (s t : State) (rd : FReg) (v : Word) (fl : FpFlags) : Prop where
  legal : t.legal = true
  pc : PcAdvanced s t
  dest : t.readF rd = v
  otherF : ∀ r, r ≠ rd → t.readF r = s.readF r
  x : SameX s t
  fflags : t.fflags = s.fflags ||| fl
  memory : SameMemory s t
  rest : SameRest s t

/-- The 64-bit FPR value of a result of format F: upper half all ones for S (42_fp_numerics.md rules R146, R147). -/
def fprValue : (F : Fmt) → BitVec F.width → Word
  | .S, v => BitVec.ofNat 64 ((2 ^ 32 - 1) * 2 ^ 32 + v.toNat)
  | .D, v => v

/-! ### Values and correct rounding (42_fp_numerics.md rules R141, R152) -/

/-- The exact rational a finite word stands for (42_fp_numerics.md rule R141). -/
def valueQ (F : Fmt) (x : BitVec F.width) : ℚ :=
  let m : ℚ :=
    if expOf F x = 0 then (fracOf F x : ℚ) * 2 ^ (F.emin - F.fracBits)
    else ((2 ^ F.fracBits + fracOf F x : Nat) : ℚ) * 2 ^ ((expOf F x : Int) - F.bias - F.fracBits)
  if signOf F x then -m else m

/-- The real number of a magnitude. -/
noncomputable def magReal : Mag → ℝ
  | .ratio n d => (n : ℝ) / d
  | .root n d => Real.sqrt ((n : ℝ) / d)

/-- The denominator is positive and the magnitude is not zero. -/
def Mag.positive : Mag → Prop
  | .ratio n d => 0 < n ∧ 0 < d
  | .root n d => 0 < n ∧ 0 < d

/-- The finite word r is the correct rounding of the real v under the mode (42_fp_numerics.md rule R152), among the finite
words of the format. -/
def Rounds (F : Fmt) (mode : Mode) (v : ℝ) (r : BitVec F.width) : Prop :=
  isFinite F r = true ∧
  match mode with
  | .rdn => (valueQ F r : ℝ) ≤ v ∧ ∀ x, isFinite F x = true → (valueQ F x : ℝ) ≤ v → valueQ F x ≤ valueQ F r
  | .rup => v ≤ (valueQ F r : ℝ) ∧ ∀ x, isFinite F x = true → v ≤ (valueQ F x : ℝ) → valueQ F r ≤ valueQ F x
  | .rtz =>
    |(valueQ F r : ℝ)| ≤ |v| ∧ 0 ≤ (valueQ F r : ℝ) * v ∧
      ∀ x, isFinite F x = true → |(valueQ F x : ℝ)| ≤ |v| → |valueQ F x| ≤ |valueQ F r|
  | .rne =>
    (∀ x, isFinite F x = true → |(valueQ F r : ℝ) - v| ≤ |(valueQ F x : ℝ) - v|) ∧
      ∀ x, isFinite F x = true → valueQ F x ≠ valueQ F r →
        |(valueQ F x : ℝ) - v| = |(valueQ F r : ℝ) - v| → fracOf F r % 2 = 0
  | .rmm =>
    (∀ x, isFinite F x = true → |(valueQ F r : ℝ) - v| ≤ |(valueQ F x : ℝ) - v|) ∧
      ∀ x, isFinite F x = true → |(valueQ F x : ℝ) - v| = |(valueQ F r : ℝ) - v| → |valueQ F x| ≤ |valueQ F r|

/-- The signed real of a magnitude. -/
noncomputable def signedMag (neg : Bool) (a : Mag) : ℝ := if neg then -magReal a else magReal a

/-- MaxF = (2 − 2^(1−p))·2^emax (42_fp_numerics.md rule R141). -/
noncomputable def maxFReal (F : Fmt) : ℝ := (2 - 2 ^ (1 - (F.prec : Int))) * 2 ^ F.emax

/-- The magnitude a, rounded to p bits, reaches 2^(emax+1) (42_fp_numerics.md rule R154): from the midpoint between MaxF
and 2^(emax+1) to nearest, above MaxF away from zero, from 2^(emax+1) toward zero. -/
def overflows (F : Fmt) (neg : Bool) (mode : Mode) (a : ℝ) : Prop :=
  match mode with
  | .rne | .rmm => (2 - 2 ^ (-(F.prec : Int))) * 2 ^ F.emax ≤ a
  | .rtz => 2 ^ (F.emax + 1) ≤ a
  | .rdn => if neg then maxFReal F < a else 2 ^ (F.emax + 1) ≤ a
  | .rup => if neg then 2 ^ (F.emax + 1) ≤ a else maxFReal F < a

/-- The magnitude a, rounded to p bits with an unbounded exponent, stays below 2^emin (42_fp_numerics.md rule R155). The
last p-bit value below 2^emin is 2^emin − 2^(emin−p). -/
def tinyAfterRounding (F : Fmt) (neg : Bool) (mode : Mode) (a : ℝ) : Prop :=
  match mode with
  | .rne | .rmm => a < 2 ^ F.emin - 2 ^ (F.emin - F.prec - 1)
  | .rtz => a < 2 ^ F.emin
  | .rdn => if neg then a ≤ 2 ^ F.emin - 2 ^ (F.emin - F.prec) else a < 2 ^ F.emin
  | .rup => if neg then a < 2 ^ F.emin else a ≤ 2 ^ F.emin - 2 ^ (F.emin - F.prec)

/-- The flag set has the flag. -/
def hasFlag (fl flag : FpFlags) : Prop := fl &&& flag = flag

/-- The integer a rational rounds to under the mode (42_fp_numerics.md rule R152). -/
def roundedInt (mode : Mode) (v : ℚ) : Int :=
  match mode with
  | .rdn => ⌊v⌋
  | .rup => ⌈v⌉
  | .rtz => if 0 ≤ v then ⌊v⌋ else ⌈v⌉
  | .rmm => if 0 ≤ v then ⌊v + 1 / 2⌋ else ⌈v - 1 / 2⌉
  | .rne =>
    if v - ⌊v⌋ < 1 / 2 then ⌊v⌋
    else if 1 / 2 < v - ⌊v⌋ then ⌊v⌋ + 1
    else if ⌊v⌋ % 2 = 0 then ⌊v⌋ else ⌊v⌋ + 1

/-- The order of the words that are no NaNs: −∞ < finite < +∞, finite ones by value (45_fp_compare_class.md rule
R245). -/
def below (F : Fmt) (a b : BitVec F.width) : Prop :=
  if isInf F a then signOf F a = true ∧ ¬ (isInf F b = true ∧ signOf F b = true)
  else if isInf F b then signOf F b = false
  else valueQ F a < valueQ F b

/-- Equal as values: the same infinity, or finite words of one value (−0 = +0). -/
def equalValue (F : Fmt) (a b : BitVec F.width) : Prop :=
  if isInf F a || isInf F b then a = b else valueQ F a = valueQ F b

/-! ### Completion, results at XLEN, memory access -/

/-- The instruction answers a next state, of which `P` holds. -/
def Completes (i : Instr) (s : State) (P : State → Prop) : Prop := ∃ t, exec i s = .next t ∧ P t

/-- The illegal outcome: `legal` is false and every other element is as before (60_exceptions.md rule R300). -/
def RunsIllegal (i : Instr) (s : State) : Prop := exec i s = .next { s with legal := false }

/-- `sext_XLEN(w_32(i))`, zero-extended to the held width. -/
def sextXlen (s : State) (i : Int) : Word :=
  match s.rv with
  | .rv32 => wordN 32 i
  | .rv64 => sextWord i

/-- The register value of an integer of the kind (44_fp_convert.md rules R213 to R216). -/
def intResult (s : State) (k : IntKind) (n : Int) : Word :=
  match k with
  | .w | .wu => sextXlen s n
  | .l | .lu => wordN 64 n

/-- A completed transaction that wrote an FP result of format F with its flags. -/
def WroteFp (F : Fmt) (s t : State) (rd : FReg) (r : BitVec F.width × FpFlags) : Prop :=
  WroteF s t rd (fprValue F r.1) r.2

/-- misa.F is set. -/
def HasF (s : State) : Prop := s.misa.getLsbD 5 = true

/-- misa.F and misa.D are set. -/
def HasFD (s : State) : Prop := s.misa.getLsbD 5 = true ∧ s.misa.getLsbD 3 = true

/-- ea = (x[rs1] + sext(imm12)) mod 2^XLEN (20_memory.md rule R51). -/
def addressOf (s : State) (rs1 : XReg) (imm : BitVec 12) : Word := wordX s (unsignedX s rs1 + imm.toInt)

/-- The address of byte k of an access at pa. -/
def byteAddress (pa : Word) (k : Nat) : Nat := (pa.toNat + k) % 2 ^ 64

/-- The little-endian value of the n bytes at pa (20_memory.md rule R55). -/
def leValue (s : State) (pa : Word) (n : Nat) : Nat :=
  ((List.range n).map fun k => (s.mem.read (byteAddress pa k)).toNat * 256 ^ k).sum

/-- A completed store of the n low bytes of v at pa: those bytes hold the value, every other byte reads as before, and
nothing but the PC and memory changed. -/
structure Stored (s t : State) (pa : Word) (n : Nat) (v : Nat) : Prop where
  legal : t.legal = true
  pc : PcAdvanced s t
  x : SameX s t
  f : SameF s t
  fflags : t.fflags = s.fflags
  stored : ∀ k, k < n → (t.mem.read (byteAddress pa k)).toNat = v / 256 ^ k % 256
  others : ∀ a, (∀ k, k < n → a ≠ byteAddress pa k) → t.mem.read a = s.mem.read a
  rest : SameRest s t

/-! ### Raised flags, the frame of memory -/

/-- The flags of an operation under the instruction's rounding mode, none where that mode is illegal. -/
def raisedIn (s : State) (rm : Rm) (flags : Mode → FpFlags) : FpFlags :=
  match roundingModeCheck rm s.frm with
  | some mode => flags mode
  | none => FpFlag.none

/-- The flags an instruction raises: those of its operation on its operands (43_fp_arith.md to 46_fp_sign_move.md). -/
def raisedFlags (i : Instr) (s : State) : FpFlags :=
  match i with
  | .mul _ _ _ => FpFlag.none
  | .mulh _ _ _ => FpFlag.none
  | .mulhsu _ _ _ => FpFlag.none
  | .mulhu _ _ _ => FpFlag.none
  | .div _ _ _ => FpFlag.none
  | .divu _ _ _ => FpFlag.none
  | .rem _ _ _ => FpFlag.none
  | .remu _ _ _ => FpFlag.none
  | .mulw _ _ _ => FpFlag.none
  | .divw _ _ _ => FpFlag.none
  | .divuw _ _ _ => FpFlag.none
  | .remw _ _ _ => FpFlag.none
  | .remuw _ _ _ => FpFlag.none
  | .flw _ _ _ => FpFlag.none
  | .fld _ _ _ => FpFlag.none
  | .fsw _ _ _ => FpFlag.none
  | .fsd _ _ _ => FpFlag.none
  | .fmaddS _ rs1 rs2 rs3 rm => raisedIn s rm fun mode => (fpFma .S (s.readFp .S rs1) (s.readFp .S rs2) (s.readFp .S rs3) false false mode).2
  | .fmsubS _ rs1 rs2 rs3 rm => raisedIn s rm fun mode => (fpFma .S (s.readFp .S rs1) (s.readFp .S rs2) (s.readFp .S rs3) false true mode).2
  | .fnmsubS _ rs1 rs2 rs3 rm => raisedIn s rm fun mode => (fpFma .S (s.readFp .S rs1) (s.readFp .S rs2) (s.readFp .S rs3) true false mode).2
  | .fnmaddS _ rs1 rs2 rs3 rm => raisedIn s rm fun mode => (fpFma .S (s.readFp .S rs1) (s.readFp .S rs2) (s.readFp .S rs3) true true mode).2
  | .fmaddD _ rs1 rs2 rs3 rm => raisedIn s rm fun mode => (fpFma .D (s.readFp .D rs1) (s.readFp .D rs2) (s.readFp .D rs3) false false mode).2
  | .fmsubD _ rs1 rs2 rs3 rm => raisedIn s rm fun mode => (fpFma .D (s.readFp .D rs1) (s.readFp .D rs2) (s.readFp .D rs3) false true mode).2
  | .fnmsubD _ rs1 rs2 rs3 rm => raisedIn s rm fun mode => (fpFma .D (s.readFp .D rs1) (s.readFp .D rs2) (s.readFp .D rs3) true false mode).2
  | .fnmaddD _ rs1 rs2 rs3 rm => raisedIn s rm fun mode => (fpFma .D (s.readFp .D rs1) (s.readFp .D rs2) (s.readFp .D rs3) true true mode).2
  | .faddS _ rs1 rs2 rm => raisedIn s rm fun mode => (fpAdd .S (s.readFp .S rs1) (s.readFp .S rs2) mode).2
  | .fsubS _ rs1 rs2 rm => raisedIn s rm fun mode => (fpSub .S (s.readFp .S rs1) (s.readFp .S rs2) mode).2
  | .fmulS _ rs1 rs2 rm => raisedIn s rm fun mode => (fpMul .S (s.readFp .S rs1) (s.readFp .S rs2) mode).2
  | .fdivS _ rs1 rs2 rm => raisedIn s rm fun mode => (fpDiv .S (s.readFp .S rs1) (s.readFp .S rs2) mode).2
  | .fsqrtS _ rs1 rm => raisedIn s rm fun mode => (fpSqrt .S (s.readFp .S rs1) mode).2
  | .faddD _ rs1 rs2 rm => raisedIn s rm fun mode => (fpAdd .D (s.readFp .D rs1) (s.readFp .D rs2) mode).2
  | .fsubD _ rs1 rs2 rm => raisedIn s rm fun mode => (fpSub .D (s.readFp .D rs1) (s.readFp .D rs2) mode).2
  | .fmulD _ rs1 rs2 rm => raisedIn s rm fun mode => (fpMul .D (s.readFp .D rs1) (s.readFp .D rs2) mode).2
  | .fdivD _ rs1 rs2 rm => raisedIn s rm fun mode => (fpDiv .D (s.readFp .D rs1) (s.readFp .D rs2) mode).2
  | .fsqrtD _ rs1 rm => raisedIn s rm fun mode => (fpSqrt .D (s.readFp .D rs1) mode).2
  | .fcvtWS _ rs1 rm => raisedIn s rm fun mode => (fpToInt .S .w (s.readFp .S rs1) mode).2
  | .fcvtWUS _ rs1 rm => raisedIn s rm fun mode => (fpToInt .S .wu (s.readFp .S rs1) mode).2
  | .fcvtLS _ rs1 rm => raisedIn s rm fun mode => (fpToInt .S .l (s.readFp .S rs1) mode).2
  | .fcvtLUS _ rs1 rm => raisedIn s rm fun mode => (fpToInt .S .lu (s.readFp .S rs1) mode).2
  | .fcvtSW _ rs1 rm => raisedIn s rm fun mode => (intToFp .S (signed32 s rs1) mode).2
  | .fcvtSWU _ rs1 rm => raisedIn s rm fun mode => (intToFp .S (unsigned32 s rs1) mode).2
  | .fcvtSL _ rs1 rm => raisedIn s rm fun mode => (intToFp .S (signedX s rs1) mode).2
  | .fcvtSLU _ rs1 rm => raisedIn s rm fun mode => (intToFp .S (unsignedX s rs1) mode).2
  | .fcvtWD _ rs1 rm => raisedIn s rm fun mode => (fpToInt .D .w (s.readFp .D rs1) mode).2
  | .fcvtWUD _ rs1 rm => raisedIn s rm fun mode => (fpToInt .D .wu (s.readFp .D rs1) mode).2
  | .fcvtLD _ rs1 rm => raisedIn s rm fun mode => (fpToInt .D .l (s.readFp .D rs1) mode).2
  | .fcvtLUD _ rs1 rm => raisedIn s rm fun mode => (fpToInt .D .lu (s.readFp .D rs1) mode).2
  | .fcvtDW _ rs1 rm => raisedIn s rm fun mode => (intToFp .D (signed32 s rs1) mode).2
  | .fcvtDWU _ rs1 rm => raisedIn s rm fun mode => (intToFp .D (unsigned32 s rs1) mode).2
  | .fcvtDL _ rs1 rm => raisedIn s rm fun mode => (intToFp .D (signedX s rs1) mode).2
  | .fcvtDLU _ rs1 rm => raisedIn s rm fun mode => (intToFp .D (unsignedX s rs1) mode).2
  | .fcvtSD _ rs1 rm => raisedIn s rm fun mode => (fpToFp .D .S (s.readFp .D rs1) mode).2
  | .fcvtDS _ rs1 rm => raisedIn s rm fun mode => (fpToFp .S .D (s.readFp .S rs1) mode).2
  | .fminS _ rs1 rs2 => (fpMinMax .S false (s.readFp .S rs1) (s.readFp .S rs2)).2
  | .fmaxS _ rs1 rs2 => (fpMinMax .S true (s.readFp .S rs1) (s.readFp .S rs2)).2
  | .fminD _ rs1 rs2 => (fpMinMax .D false (s.readFp .D rs1) (s.readFp .D rs2)).2
  | .fmaxD _ rs1 rs2 => (fpMinMax .D true (s.readFp .D rs1) (s.readFp .D rs2)).2
  | .feqS _ rs1 rs2 => (fpCompare .S .eq (s.readFp .S rs1) (s.readFp .S rs2)).2
  | .fltS _ rs1 rs2 => (fpCompare .S .lt (s.readFp .S rs1) (s.readFp .S rs2)).2
  | .fleS _ rs1 rs2 => (fpCompare .S .le (s.readFp .S rs1) (s.readFp .S rs2)).2
  | .feqD _ rs1 rs2 => (fpCompare .D .eq (s.readFp .D rs1) (s.readFp .D rs2)).2
  | .fltD _ rs1 rs2 => (fpCompare .D .lt (s.readFp .D rs1) (s.readFp .D rs2)).2
  | .fleD _ rs1 rs2 => (fpCompare .D .le (s.readFp .D rs1) (s.readFp .D rs2)).2
  | .fclassS _ _ => FpFlag.none
  | .fclassD _ _ => FpFlag.none
  | .fsgnjS _ _ _ => FpFlag.none
  | .fsgnjnS _ _ _ => FpFlag.none
  | .fsgnjxS _ _ _ => FpFlag.none
  | .fsgnjD _ _ _ => FpFlag.none
  | .fsgnjnD _ _ _ => FpFlag.none
  | .fsgnjxD _ _ _ => FpFlag.none
  | .fmvXW _ _ => FpFlag.none
  | .fmvWX _ _ => FpFlag.none
  | .fmvXD _ _ => FpFlag.none
  | .fmvDX _ _ => FpFlag.none

/-- Every byte of memory after a memory instruction that answered t: as before for an illegal one; else as the translation
of ea left it, but for the n bytes at the physical address of a store whose translation succeeded. -/
structure MemoryFrame (s t : State) (kind : Access) (n : Nat) (ea : Word) : Prop where
  illegal : t.legal = false → SameMemory s t
  translated : t.legal = true → ∀ pa s1, translate s kind ea = .ok pa s1 →
    ∀ a, (kind = .store → ∀ k, k < n → a ≠ byteAddress pa k) → t.mem.read a = s1.mem.read a
  failed : t.legal = true → ∀ code s1, translate s kind ea = .error code s1 → SameMemory s1 t

/-- The access of n bytes at pa touches the region (log entry 9). -/
def Touches (r : Region) (pa : Word) (n : Nat) : Prop :=
  ∃ k, k < n ∧ ((pa + BitVec.ofNat 64 k) - r.base).toNat < r.size

/-! ### The invariant -/

/-- Memory is canonical, x0 is stored as zero, and on RV32 the general registers and the PC hold 32 bits. -/
def State.Inv (s : State) : Prop :=
  s.mem.wf = true ∧ s.x[0] = 0 ∧
    (s.rv = .rv32 → (∀ r : XReg, (s.x[r]).toNat < 2 ^ 32) ∧ s.pc.toNat < 2 ^ 32)

end Sys2Proof.Machine
end

