-- ==== Sys2Proof/Certificates/Slice0/Obligations.lean ====
section
/-! DEFINITION. The statements for the provers. Each docstring names the rule of spec/ it formalises; where a rule is
supplied by the spec itself ("from general knowledge", "decision"), the docstring says so. -/
open Sys2Proof Sys2Proof.Machine

/-! ### Encoding -/

/-- Words the spec writes out (rules R102, R106, R120, R122, R185 to R283, their examples) decode to the instructions it
says they are. -/
def Obligations.DecodesSpecWords : Prop :=
  decode 0x02B50533#32 = .ok (.mul 10 10 11) ∧ decode 0x02B5053B#32 = .ok (.mulw 10 10 11) ∧
  decode 0x0205C533#32 = .ok (.div 10 11 0) ∧ decode 0x0205E533#32 = .ok (.rem 10 11 0) ∧
  decode 0x02B57553#32 = .ok (.faddD 10 10 11 .dyn) ∧ decode 0x18B57553#32 = .ok (.fdivS 10 10 11 .dyn) ∧
  decode 0xC0051553#32 = .ok (.fcvtWS 10 10 .rtz) ∧ decode 0xD0359553#32 = .ok (.fcvtSLU 10 11 .rtz) ∧
  decode 0x40150553#32 = .ok (.fcvtSD 10 10 .rne) ∧ decode 0x28B51553#32 = .ok (.fmaxS 10 10 11) ∧
  decode 0xA2B50553#32 = .ok (.fleD 10 10 11) ∧ decode 0xE0051553#32 = .ok (.fclassS 10 10) ∧
  decode 0x20B52553#32 = .ok (.fsgnjxS 10 10 11) ∧ decode 0xF0058553#32 = .ok (.fmvWX 10 11) ∧
  decode 0x0085A507#32 = .ok (.flw 10 11 8) ∧ decode 0xFF85B507#32 = .ok (.fld 10 11 (-8)) ∧
  decode 0x00B52427#32 = .ok (.fsw 11 10 8) ∧ decode 0xFEB53C27#32 = .ok (.fsd 11 10 (-8))

/-- Every instruction, with every operand at every value its field admits (the reserved rounding modes included), is what
the decoder reads from its encoded word. -/
def Obligations.DecodeOfEncode : Prop := ∀ i : Instr, decode (encode i) = .ok i

/-- A word the decoder accepts is the encoding of what it reads, so no two words mean one instruction and no bit is
dropped. -/
def Obligations.EncodeOfDecode : Prop := ∀ (w : InstWord) (i : Instr), decode w = .ok i → encode i = w

/-- 30_encoding.md rules R78, R79 and R82: a word is an instruction of the block iff it matches a row of
opcode_table.json; it is then the instruction of that row, and no other row matches. -/
def Obligations.DecodesExactlyTheTable : Prop :=
  ∀ w : InstWord,
    (∀ i, decode w = .ok i →
      w &&& i.row.mask = i.row.pattern ∧ ∀ r ∈ opcodeRows, w &&& r.mask = r.pattern → r = i.row) ∧
    (∀ r ∈ opcodeRows, w &&& r.mask = r.pattern → ∃ i, decode w = .ok i ∧ i.row = r)

/-! ### The step -/

/-- 00_scope.md rules R3, R4: a step takes the caller's next word and, where it decodes to an instruction, is that
instruction's meaning on the state with the word taken and its is_C at hand. With no word there is no transaction (the
model's choice, log entry 1). -/
def Obligations.StepRunsDecodedWord : Prop :=
  (∀ (s : State) (o : Offer) (rest : List Offer) (i : Instr), s.offers = o :: rest → decode o.word = .ok i →
    step s = exec i { s with offers := rest, isC := o.isC }) ∧
  (∀ s : State, s.offers = [] → step s = .refused .noWordOffered)

/-- The word handed over by `withFetchWord` is the one the very next step runs (the model's convention, log entry 1). -/
def Obligations.HandedOverWordRunsNext : Prop :=
  ∀ (s : State) (i : Instr), step (s.withFetchWord 32 (encode i).toNat) = exec i { s with isC := false }

/-- 60_exceptions.md rules R300, R301 and 30_encoding.md rules R82, R84: an opcode that is none of the block's, a word that
is no instruction (an unlisted funct7, funct3, rs2 or funct2 under an opcode of the block among them, decision D7), an FP
instruction whose feature bits (misa.F; misa.F and misa.D for a .D instruction, decision D4) are not set, an unsupported
rounding mode and an RV64-only instruction on RV32 each answer legal = false with every other element (mcause, mtval, the PC and fflags among them) unchanged. -/
def Obligations.IllegalWordsWriteNothing : Prop :=
  (∀ (w : InstWord) (s : State),
    (opcodeField w).toNat ∉ [0x33, 0x3B, 0x07, 0x27, 0x53, 0x43, 0x47, 0x4B, 0x4F] →
      transact w s = .next { s with legal := false }) ∧
  (∀ (w : InstWord) (s : State), (∀ i, decode w ≠ .ok i) → transact w s = .next { s with legal := false }) ∧
  (∀ (i : Instr) (s : State), needsFormat i = some .S → ¬ HasF s → RunsIllegal i s) ∧
  (∀ (i : Instr) (s : State), needsFormat i = some .D → ¬ HasFD s → RunsIllegal i s) ∧
  (∀ (i : Instr) (s : State) (rm : Rm), i.rmField = some rm → rmLegal rm s.frm = false → RunsIllegal i s) ∧
  (∀ (i : Instr) (s : State), needsRv64 i = true → s.rv = .rv32 → RunsIllegal i s)

/-- 00_scope.md rule R5: whatever the word, a transaction that answers legal = false returns the input state. -/
def Obligations.IllegalReturnsInputState : Prop :=
  (∀ (i : Instr) (s t : State), exec i s = .next t → t.legal = false → t = { s with legal := false }) ∧
  (∀ (w : InstWord) (s t : State), transact w s = .next t → t.legal = false → t = { s with legal := false })

/-- 60_exceptions.md rule R301, the complete list of conditions (its feature bits of .D instructions are decision D4, its
rm check on every row decision D6): an instruction runs illegal exactly where one of them holds. -/
def Obligations.LegalExactlyByTheList : Prop :=
  ∀ (i : Instr) (s : State),
    (legalIn i s = false → RunsIllegal i s) ∧
    (legalIn i s = true → ∀ t, exec i s = .next t → t.legal = true)

/-- 42_fp_numerics.md rule R150 on the 3-bit codes: 0 to 4 are themselves, 7 takes frm where frm is 0 to 4, anything else
is illegal. -/
def Obligations.RoundingModeResolution : Prop :=
  ∀ rm frm : BitVec 3,
    roundingModeCheck (rmOf rm) frm =
      if rm.toNat ≤ 4 then [Mode.rne, .rtz, .rdn, .rup, .rmm][rm.toNat]?
      else if rm.toNat = 7 then [Mode.rne, .rtz, .rdn, .rup, .rmm][frm.toNat]?
      else none

/-- 60_exceptions.md rule R318 (every transaction runs to completion, decision D33) and 93_implementation_defined.md
section 1: every instruction answers a next state in every state, but where a host call of FLW, FLD, FSW or FSD never
returns (the model's fault, log entry 11). -/
def Obligations.EveryInstructionAnswers : Prop :=
  ∀ (i : Instr) (s : State),
    (∃ t, exec i s = .next t) ∨ (isMemory i = true ∧ exec i s = .fault .hostCallNeverReturns)

/-! ### Rules of the whole machine -/

/-- The reset machine meets the invariant (70_reset_and_hazards.md rule R330 fixes only x0 = 0; the other values are the
model's, log entries 3 to 5). -/
def Obligations.ResetMeetsInvariant : Prop := State.reset.Inv ∧ State.reset.readX 0 = 0

/-- 10_state.md rules R20, R21, R30: a step keeps memory canonical, x0 zero, and on RV32 every general register and the
PC within 32 bits (the held width is the model's, log entry 6). -/
def Obligations.StepKeepsInvariant : Prop := ∀ s t : State, s.Inv → step s = .next t → t.Inv

/-- Two canonical memories that read the same everywhere are the same list (the model's form of memory, log entry 5). -/
def Obligations.CanonicalMemoryIsItsReads : Prop :=
  ∀ m n : Memory, m.wf = true → n.wf = true → (∀ a, m.read a = n.read a) → m = n

/-- 42_fp_numerics.md rule R159: no step clears a bit of fflags. -/
def Obligations.FlagsOnlyGrow : Prop :=
  ∀ s t : State, step s = .next t → s.fflags &&& t.fflags = s.fflags

/-- 00_scope.md rule R6, the frame of all 75 instructions: only the destination register changes; fflags change for no
memory instruction, mcause and mtval only for one; memory changes only for one. A load leaves memory as its translation left
it (rule R52), so unchanged with VM inactive; a store too, but for the bytes it stores at the physical address; an illegal
one leaves it unchanged. rv, misa, frm and the rest are written by none. -/
def Obligations.OnlyTheListedElementsChange : Prop :=
  ∀ (i : Instr) (s t : State), exec i s = .next t →
    (∀ r, destOf i ≠ .x r → t.readX r = s.readX r) ∧
    (∀ r, (∀ F, destOf i ≠ .f F r) → t.readF r = s.readF r) ∧
    (isMemory i = true → t.fflags = s.fflags) ∧
    (isMemory i = false → t.mcause = s.mcause ∧ t.mtval = s.mtval ∧ SameMemory s t) ∧
    (destOf i ≠ .none → s.host.vmActive = false → SameMemory s t) ∧
    (∀ fr rs1 imm, i = .flw fr rs1 imm → MemoryFrame s t .load 4 (addressOf s rs1 imm)) ∧
    (∀ fr rs1 imm, i = .fld fr rs1 imm → MemoryFrame s t .load 8 (addressOf s rs1 imm)) ∧
    (∀ fr rs1 imm, i = .fsw fr rs1 imm → MemoryFrame s t .store 4 (addressOf s rs1 imm)) ∧
    (∀ fr rs1 imm, i = .fsd fr rs1 imm → MemoryFrame s t .store 8 (addressOf s rs1 imm)) ∧
    t.rv = s.rv ∧ t.misa = s.misa ∧ t.frm = s.frm ∧ t.host = s.host ∧ t.offers = s.offers ∧ t.isC = s.isC

/-- 10_state.md rules R31 (the wrap is decision D20) and R32: a legal instruction that accesses no memory advances the PC
by 2 or 4 modulo 2^XLEN; a memory instruction does so or leaves the PC; an illegal one leaves it. -/
def Obligations.PcAdvancesByRule : Prop :=
  ∀ (i : Instr) (s t : State), exec i s = .next t →
    (t.legal = true → isMemory i = false → PcAdvanced s t) ∧
    (isMemory i = true → PcAdvanced s t ∨ t.pc = s.pc) ∧
    (t.legal = false → t.pc = s.pc)

/-- 10_state.md rule R21 and 60_exceptions.md rule R310 (decisions D43, D44): x0 reads as zero after every instruction,
and an instruction whose destination is x0 leaves every general register as it was. -/
def Obligations.X0IsHardwired : Prop :=
  ∀ (i : Instr) (s t : State), exec i s = .next t →
    t.readX 0 = 0 ∧ (destOf i = .x 0 → SameX s t)

/-- 10_state.md rule R25: a single is valid only with the upper 32 bits all ones, any other FPR value reads as the
canonical 32-bit NaN; and after an instruction with a single-precision FPR destination that completes, seen by the PC having
moved (an illegal word and a trap leave it), that register is boxed. -/
def Obligations.SingleResultsAreBoxed : Prop :=
  (∀ (s : State) (r : FReg), (s.readF r).toNat / 2 ^ 32 ≠ 2 ^ 32 - 1 → s.readFp .S r = 0x7FC00000#32) ∧
  (∀ (s : State) (r : FReg), (s.readF r).toNat / 2 ^ 32 = 2 ^ 32 - 1 →
    (s.readFp .S r).toNat = (s.readF r).toNat % 2 ^ 32) ∧
  (∀ (i : Instr) (s t : State) (rd : FReg), destOf i = .f .S rd → exec i s = .next t → t.pc ≠ s.pc →
    (t.readF rd).toNat / 2 ^ 32 = 2 ^ 32 - 1)

/-- 60_exceptions.md rule R304: every M instruction answers, whatever its operands (a zero divisor, an overflow), is legal
where it exists (rule R101 of 40_m_multiply.md), and writes neither fflags nor mcause nor mtval. -/
def Obligations.IntegerArithmeticRaisesNothing : Prop :=
  ∀ (i : Instr) (s : State), needsFormat i = none →
    ∃ t, exec i s = .next t ∧ t.fflags = s.fflags ∧ t.mcause = s.mcause ∧ t.mtval = s.mtval ∧
      (t.legal = true ↔ (needsRv64 i = true → s.rv = .rv64))

/-- 42_fp_numerics.md rule R161: an FP instruction that accesses no memory never records a trap; a legal one goes on, and
fflags then hold, beside the old bits, exactly the bits its operation raises. -/
def Obligations.FpExceptionsNeverTrap : Prop :=
  ∀ (i : Instr) (s : State), needsFormat i ≠ none → isMemory i = false →
    ∃ t, exec i s = .next t ∧ t.mcause = s.mcause ∧ t.mtval = s.mtval ∧ s.fflags &&& t.fflags = s.fflags ∧
      (t.legal = true → t.fflags = s.fflags ||| raisedFlags i s ∧ PcAdvanced s t)

/-- What has no influence: misa on an M instruction (decision D3); frm on an instruction whose rm field is not DYN or that
has none (42_fp_numerics.md rule R150); is_C on anything but the PC (30_encoding.md rule R85, decision D37). -/
def Obligations.WhatInstructionsDoNotRead : Prop :=
  ∀ (i : Instr) (s t : State), exec i s = .next t →
    (∀ v, needsFormat i = none → exec i { s with misa := v } = .next { t with misa := v }) ∧
    (∀ v, i.rmField ≠ some .dyn → exec i { s with frm := v } = .next { t with frm := v }) ∧
    (∀ b, ∃ v, exec i { s with isC := b } = .next { t with isC := b, pc := v })

/-! ### Integer multiply and divide -/

/-- 40_m_multiply.md rule R102. -/
def Obligations.MulResult : Prop :=
  ∀ (rd rs1 rs2 : XReg) (s : State),
    encode (.mul rd rs1 rs2) &&& 0xFE00707F#32 = 0x02000033#32 ∧
    Completes (.mul rd rs1 rs2) s fun t => WroteX s t rd (wordX s (signedX s rs1 * signedX s rs2)) 0

/-- 40_m_multiply.md rules R103 to R105 (their funct3 values are supplied by the spec, log entry 12). -/
def Obligations.MulHighResults : Prop :=
  ∀ (rd rs1 rs2 : XReg) (s : State),
    Completes (.mulh rd rs1 rs2) s (fun t => WroteX s t rd
      (wordX s ⌊(signedX s rs1 * signedX s rs2 : ℚ) / 2 ^ s.rv.xlen⌋) 0) ∧
    Completes (.mulhsu rd rs1 rs2) s (fun t => WroteX s t rd
      (wordX s ⌊(signedX s rs1 * unsignedX s rs2 : ℚ) / 2 ^ s.rv.xlen⌋) 0) ∧
    Completes (.mulhu rd rs1 rs2) s (fun t => WroteX s t rd
      (wordX s ⌊(unsignedX s rs1 * unsignedX s rs2 : ℚ) / 2 ^ s.rv.xlen⌋) 0)

/-- 40_m_multiply.md rule R106, with its legality (rule R101): illegal on RV32. -/
def Obligations.MulWordResult : Prop :=
  ∀ (rd rs1 rs2 : XReg) (s : State),
    encode (.mulw rd rs1 rs2) &&& 0xFE00707F#32 = 0x0200003B#32 ∧
    (s.rv = .rv64 → Completes (.mulw rd rs1 rs2) s fun t =>
      WroteX s t rd (sextWord (signed32 s rs1 * signed32 s rs2)) 0) ∧
    (s.rv = .rv32 → RunsIllegal (.mulw rd rs1 rs2) s)

/-- 41_m_divide.md rules R120 and R122. DIV: −1 for a zero divisor, INT_MIN for INT_MIN / −1, else the quotient truncated
toward zero. REM: the dividend for a zero divisor, 0 for INT_MIN rem −1, else n − d·tdiv(n, d). -/
def Obligations.SignedDivideResults : Prop :=
  ∀ (rd rs1 rs2 : XReg) (s : State),
    let n := signedX s rs1
    let d := signedX s rs2
    let overflow := n = -2 ^ (s.rv.xlen - 1) ∧ d = -1
    encode (.div rd rs1 rs2) &&& 0xFE00707F#32 = 0x02004033#32 ∧
    encode (.rem rd rs1 rs2) &&& 0xFE00707F#32 = 0x02006033#32 ∧
    Completes (.div rd rs1 rs2) s (fun t => WroteX s t rd
      (wordX s (if d = 0 then 2 ^ s.rv.xlen - 1 else if overflow then -2 ^ (s.rv.xlen - 1) else Int.tdiv n d)) 0) ∧
    Completes (.rem rd rs1 rs2) s (fun t => WroteX s t rd
      (if d = 0 then s.readX rs1 else if overflow then 0 else wordX s (n - d * Int.tdiv n d)) 0)

/-- 41_m_divide.md rules R121, R123 (their funct3 values are supplied by the spec, log entry 12). -/
def Obligations.UnsignedDivideResults : Prop :=
  ∀ (rd rs1 rs2 : XReg) (s : State),
    Completes (.divu rd rs1 rs2) s (fun t => WroteX s t rd
      (wordX s (if unsignedX s rs2 = 0 then 2 ^ s.rv.xlen - 1 else unsignedX s rs1 / unsignedX s rs2)) 0) ∧
    Completes (.remu rd rs1 rs2) s (fun t => WroteX s t rd
      (wordX s (if unsignedX s rs2 = 0 then unsignedX s rs1 else unsignedX s rs1 % unsignedX s rs2)) 0)

/-- 41_m_divide.md rules R124 to R127: the XLEN rules on the low words, the 32-bit result sign-extended, also the unsigned
one; each is illegal on RV32 (40_m_multiply.md rule R101). -/
def Obligations.WordDivideResults : Prop :=
  ∀ (rd rs1 rs2 : XReg) (s : State),
    (s.rv = .rv64 →
      Completes (.divw rd rs1 rs2) s (fun t => WroteX s t rd
        (sextWord (if signed32 s rs2 = 0 then 2 ^ 32 - 1
          else if signed32 s rs1 = -2 ^ 31 ∧ signed32 s rs2 = -1 then -2 ^ 31
          else Int.tdiv (signed32 s rs1) (signed32 s rs2))) 0) ∧
      Completes (.divuw rd rs1 rs2) s (fun t => WroteX s t rd
        (sextWord (if unsigned32 s rs2 = 0 then 2 ^ 32 - 1 else unsigned32 s rs1 / unsigned32 s rs2)) 0) ∧
      Completes (.remw rd rs1 rs2) s (fun t => WroteX s t rd
        (sextWord (if signed32 s rs2 = 0 then signed32 s rs1
          else if signed32 s rs1 = -2 ^ 31 ∧ signed32 s rs2 = -1 then 0
          else signed32 s rs1 - signed32 s rs2 * Int.tdiv (signed32 s rs1) (signed32 s rs2))) 0) ∧
      Completes (.remuw rd rs1 rs2) s (fun t => WroteX s t rd
        (sextWord (if unsigned32 s rs2 = 0 then unsigned32 s rs1 else unsigned32 s rs1 % unsigned32 s rs2)) 0)) ∧
    (s.rv = .rv32 →
      RunsIllegal (.divw rd rs1 rs2) s ∧ RunsIllegal (.divuw rd rs1 rs2) s ∧
      RunsIllegal (.remw rd rs1 rs2) s ∧ RunsIllegal (.remuw rd rs1 rs2) s)

/-- 40_m_multiply.md rule R107: the high and the low half of a product, written by two instructions to registers p and q
from one state, make up the exact product; the low half does not depend on signedness; MUL, MULH and MULHU commute. -/
def Obligations.MultiplicationLaws : Prop :=
  ∀ (s lo hi hsu hu : State) (p q rs1 rs2 : XReg), p ≠ 0 → q ≠ 0 →
    exec (.mul q rs1 rs2) s = .next lo → exec (.mulh p rs1 rs2) s = .next hi →
    exec (.mulhsu p rs1 rs2) s = .next hsu → exec (.mulhu p rs1 rs2) s = .next hu →
    unsignedX hu p * 2 ^ s.rv.xlen + unsignedX lo q = unsignedX s rs1 * unsignedX s rs2 ∧
    signedX hi p * 2 ^ s.rv.xlen + unsignedX lo q = signedX s rs1 * signedX s rs2 ∧
    signedX hsu p * 2 ^ s.rv.xlen + unsignedX lo q = signedX s rs1 * unsignedX s rs2 ∧
    lo.readX q = wordX s (unsignedX s rs1 * unsignedX s rs2) ∧
    exec (.mul q rs2 rs1) s = .next lo ∧ exec (.mulh p rs2 rs1) s = .next hi ∧ exec (.mulhu p rs2 rs1) s = .next hu

/-- 41_m_divide.md rule R128: quotient and remainder, written by two instructions to registers p and q from one state,
give back the dividend; the conventions for a zero divisor and for INT_MIN / −1; a nonzero REM has the dividend's sign and
stays below the divisor (rule R122). -/
def Obligations.DivisionLaws : Prop :=
  ∀ (s d r du ru : State) (p q rs1 rs2 : XReg), p ≠ 0 → q ≠ 0 →
    exec (.div p rs1 rs2) s = .next d → exec (.rem q rs1 rs2) s = .next r →
    exec (.divu p rs1 rs2) s = .next du → exec (.remu q rs1 rs2) s = .next ru →
    (unsignedX s rs2 ≠ 0 →
      unsignedX du p * unsignedX s rs2 + unsignedX ru q = unsignedX s rs1 ∧ unsignedX ru q < unsignedX s rs2) ∧
    (unsignedX s rs2 = 0 →
      unsignedX du p = 2 ^ s.rv.xlen - 1 ∧ ru.readX q = s.readX rs1 ∧ signedX d p = -1 ∧ r.readX q = s.readX rs1) ∧
    (signedX s rs2 ≠ 0 → ¬ (signedX s rs1 = -2 ^ (s.rv.xlen - 1) ∧ signedX s rs2 = -1) →
      signedX d p * signedX s rs2 + signedX r q = signedX s rs1) ∧
    (signedX s rs2 ≠ 0 → |signedX r q| < |signedX s rs2| ∧ 0 ≤ signedX r q * signedX s rs1) ∧
    (signedX s rs1 = -2 ^ (s.rv.xlen - 1) → signedX s rs2 = -1 → d.readX p = s.readX rs1 ∧ signedX r q = 0)

/-! ### Floating-point instructions: results, and where they complete

`roundingModeCheck rm s.frm = some mode` says that the rounding mode is legal and what it is (rule R150). The functions
`fpAdd` to `fpClass` are said to be right by the statements of the next section. -/

/-- 43_fp_arith.md rules R185 to R194: add, subtract, multiply, divide and square root, on unboxed singles (.S) or on the
64 bits as read (.D). -/
def Obligations.ArithmeticCompletes : Prop :=
  ∀ (rd rs1 rs2 : FReg) (rm : Rm) (mode : Mode) (s : State), roundingModeCheck rm s.frm = some mode →
    (HasF s →
      let a := unboxS (s.readF rs1)
      let b := unboxS (s.readF rs2)
      Completes (.faddS rd rs1 rs2 rm) s (fun t => WroteFp .S s t rd (fpAdd .S a b mode)) ∧
      Completes (.fsubS rd rs1 rs2 rm) s (fun t => WroteFp .S s t rd (fpSub .S a b mode)) ∧
      Completes (.fmulS rd rs1 rs2 rm) s (fun t => WroteFp .S s t rd (fpMul .S a b mode)) ∧
      Completes (.fdivS rd rs1 rs2 rm) s (fun t => WroteFp .S s t rd (fpDiv .S a b mode)) ∧
      Completes (.fsqrtS rd rs1 rm) s (fun t => WroteFp .S s t rd (fpSqrt .S a mode))) ∧
    (HasFD s →
      let a := s.readF rs1
      let b := s.readF rs2
      Completes (.faddD rd rs1 rs2 rm) s (fun t => WroteFp .D s t rd (fpAdd .D a b mode)) ∧
      Completes (.fsubD rd rs1 rs2 rm) s (fun t => WroteFp .D s t rd (fpSub .D a b mode)) ∧
      Completes (.fmulD rd rs1 rs2 rm) s (fun t => WroteFp .D s t rd (fpMul .D a b mode)) ∧
      Completes (.fdivD rd rs1 rs2 rm) s (fun t => WroteFp .D s t rd (fpDiv .D a b mode)) ∧
      Completes (.fsqrtD rd rs1 rm) s (fun t => WroteFp .D s t rd (fpSqrt .D a mode)))

/-- 43_fp_arith.md rules R195 to R202 with the sign choices of rule R184: FMADD, FMSUB, FNMSUB, FNMADD of both formats. -/
def Obligations.FusedMultiplyAddCompletes : Prop :=
  ∀ (rd rs1 rs2 rs3 : FReg) (rm : Rm) (mode : Mode) (s : State), roundingModeCheck rm s.frm = some mode →
    (HasF s →
      let fma := fpFma .S (unboxS (s.readF rs1)) (unboxS (s.readF rs2)) (unboxS (s.readF rs3))
      Completes (.fmaddS rd rs1 rs2 rs3 rm) s (fun t => WroteFp .S s t rd (fma false false mode)) ∧
      Completes (.fmsubS rd rs1 rs2 rs3 rm) s (fun t => WroteFp .S s t rd (fma false true mode)) ∧
      Completes (.fnmsubS rd rs1 rs2 rs3 rm) s (fun t => WroteFp .S s t rd (fma true false mode)) ∧
      Completes (.fnmaddS rd rs1 rs2 rs3 rm) s (fun t => WroteFp .S s t rd (fma true true mode))) ∧
    (HasFD s →
      let fma := fpFma .D (s.readF rs1) (s.readF rs2) (s.readF rs3)
      Completes (.fmaddD rd rs1 rs2 rs3 rm) s (fun t => WroteFp .D s t rd (fma false false mode)) ∧
      Completes (.fmsubD rd rs1 rs2 rs3 rm) s (fun t => WroteFp .D s t rd (fma false true mode)) ∧
      Completes (.fnmsubD rd rs1 rs2 rs3 rm) s (fun t => WroteFp .D s t rd (fma true false mode)) ∧
      Completes (.fnmaddD rd rs1 rs2 rs3 rm) s (fun t => WroteFp .D s t rd (fma true true mode)))

/-- 44_fp_convert.md rules R213 to R216 and R221 to R224: the integer, sign-extended from 32 bits for the W and WU forms
(decision D22), goes to x[rd]; the flags are OR-ed in also for x0 (decision D44). The L forms need RV64. -/
def Obligations.FloatToIntegerCompletes : Prop :=
  ∀ (rd : XReg) (rs1 : FReg) (rm : Rm) (mode : Mode) (s : State), roundingModeCheck rm s.frm = some mode →
    let wrote (t : State) (k : IntKind) (r : Int × FpFlags) := WroteX s t rd (intResult s k r.1) r.2
    let a := unboxS (s.readF rs1)
    let d := s.readF rs1
    (HasF s →
      Completes (.fcvtWS rd rs1 rm) s (fun t => wrote t .w (fpToInt .S .w a mode)) ∧
      Completes (.fcvtWUS rd rs1 rm) s (fun t => wrote t .wu (fpToInt .S .wu a mode))) ∧
    (HasF s → s.rv = .rv64 →
      Completes (.fcvtLS rd rs1 rm) s (fun t => wrote t .l (fpToInt .S .l a mode)) ∧
      Completes (.fcvtLUS rd rs1 rm) s (fun t => wrote t .lu (fpToInt .S .lu a mode))) ∧
    (HasFD s →
      Completes (.fcvtWD rd rs1 rm) s (fun t => wrote t .w (fpToInt .D .w d mode)) ∧
      Completes (.fcvtWUD rd rs1 rm) s (fun t => wrote t .wu (fpToInt .D .wu d mode))) ∧
    (HasFD s → s.rv = .rv64 →
      Completes (.fcvtLD rd rs1 rm) s (fun t => wrote t .l (fpToInt .D .l d mode)) ∧
      Completes (.fcvtLUD rd rs1 rm) s (fun t => wrote t .lu (fpToInt .D .lu d mode)))

/-- 44_fp_convert.md rules R217 to R220 and R225 to R228: the W and WU forms read the low 32 bits of x[rs1] (decision
D22), the L and LU forms, on RV64, all 64. -/
def Obligations.IntegerToFloatCompletes : Prop :=
  ∀ (rd : FReg) (rs1 : XReg) (rm : Rm) (mode : Mode) (s : State), roundingModeCheck rm s.frm = some mode →
    (HasF s →
      Completes (.fcvtSW rd rs1 rm) s (fun t => WroteFp .S s t rd (intToFp .S (signed32 s rs1) mode)) ∧
      Completes (.fcvtSWU rd rs1 rm) s (fun t => WroteFp .S s t rd (intToFp .S (unsigned32 s rs1) mode))) ∧
    (HasF s → s.rv = .rv64 →
      Completes (.fcvtSL rd rs1 rm) s (fun t => WroteFp .S s t rd (intToFp .S (signedX s rs1) mode)) ∧
      Completes (.fcvtSLU rd rs1 rm) s (fun t => WroteFp .S s t rd (intToFp .S (unsignedX s rs1) mode))) ∧
    (HasFD s →
      Completes (.fcvtDW rd rs1 rm) s (fun t => WroteFp .D s t rd (intToFp .D (signed32 s rs1) mode)) ∧
      Completes (.fcvtDWU rd rs1 rm) s (fun t => WroteFp .D s t rd (intToFp .D (unsigned32 s rs1) mode))) ∧
    (HasFD s → s.rv = .rv64 →
      Completes (.fcvtDL rd rs1 rm) s (fun t => WroteFp .D s t rd (intToFp .D (signedX s rs1) mode)) ∧
      Completes (.fcvtDLU rd rs1 rm) s (fun t => WroteFp .D s t rd (intToFp .D (unsignedX s rs1) mode)))

/-- 44_fp_convert.md rules R229, R230: both directions need misa.F and misa.D (decision D4). -/
def Obligations.FormatConversionCompletes : Prop :=
  ∀ (rd rs1 : FReg) (rm : Rm) (mode : Mode) (s : State), HasFD s → roundingModeCheck rm s.frm = some mode →
    Completes (.fcvtSD rd rs1 rm) s (fun t => WroteFp .S s t rd (fpToFp .D .S (s.readF rs1) mode)) ∧
    Completes (.fcvtDS rd rs1 rm) s (fun t => WroteFp .D s t rd (fpToFp .S .D (unboxS (s.readF rs1)) mode))

/-- 45_fp_compare_class.md rules R241 to R244. -/
def Obligations.MinMaxCompletes : Prop :=
  ∀ (rd rs1 rs2 : FReg) (s : State),
    (HasF s →
      let a := unboxS (s.readF rs1)
      let b := unboxS (s.readF rs2)
      Completes (.fminS rd rs1 rs2) s (fun t => WroteFp .S s t rd (fpMinMax .S false a b)) ∧
      Completes (.fmaxS rd rs1 rs2) s (fun t => WroteFp .S s t rd (fpMinMax .S true a b))) ∧
    (HasFD s →
      let a := s.readF rs1
      let b := s.readF rs2
      Completes (.fminD rd rs1 rs2) s (fun t => WroteFp .D s t rd (fpMinMax .D false a b)) ∧
      Completes (.fmaxD rd rs1 rs2) s (fun t => WroteFp .D s t rd (fpMinMax .D true a b)))

/-- 45_fp_compare_class.md rules R246 to R251, R253 and R254: a comparison writes 0 or 1 and its flags, also for x0
(decisions D39, D44); FCLASS writes its mask and no flag. -/
def Obligations.CompareAndClassifyComplete : Prop :=
  ∀ (rd : XReg) (rs1 rs2 : FReg) (s : State),
    let wrote (t : State) (r : Word × FpFlags) := WroteX s t rd r.1 r.2
    (HasF s →
      let cmp (op : CmpOp) := fpCompare .S op (unboxS (s.readF rs1)) (unboxS (s.readF rs2))
      Completes (.feqS rd rs1 rs2) s (fun t => wrote t (cmp .eq)) ∧
      Completes (.fltS rd rs1 rs2) s (fun t => wrote t (cmp .lt)) ∧
      Completes (.fleS rd rs1 rs2) s (fun t => wrote t (cmp .le)) ∧
      Completes (.fclassS rd rs1) s (fun t => wrote t (fpClass .S (unboxS (s.readF rs1)), 0))) ∧
    (HasFD s →
      let cmp (op : CmpOp) := fpCompare .D op (s.readF rs1) (s.readF rs2)
      Completes (.feqD rd rs1 rs2) s (fun t => wrote t (cmp .eq)) ∧
      Completes (.fltD rd rs1 rs2) s (fun t => wrote t (cmp .lt)) ∧
      Completes (.fleD rd rs1 rs2) s (fun t => wrote t (cmp .le)) ∧
      Completes (.fclassD rd rs1) s (fun t => wrote t (fpClass .D (s.readF rs1), 0)))

/-- 46_fp_sign_move.md rule R260: the magnitude bits of rs1 under the sign of rs2, its inverse, or the XOR of both signs,
for the six instructions, singles unboxed first; no flag; and FSGNJX(a, a) is |a|. -/
def Obligations.SignInjectionResults : Prop :=
  ∀ (rd rs1 rs2 : FReg) (s : State),
    (HasF s →
      let a := (unboxS (s.readF rs1)).toNat
      let b := (unboxS (s.readF rs2)).toNat
      let word (sign : Nat) := BitVec.ofNat 32 (sign * 2 ^ 31 + a % 2 ^ 31)
      Completes (.fsgnjS rd rs1 rs2) s (fun t => WroteFp .S s t rd (word (b / 2 ^ 31), 0)) ∧
      Completes (.fsgnjnS rd rs1 rs2) s (fun t => WroteFp .S s t rd (word (1 - b / 2 ^ 31), 0)) ∧
      Completes (.fsgnjxS rd rs1 rs2) s (fun t => WroteFp .S s t rd (word ((a / 2 ^ 31 + b / 2 ^ 31) % 2), 0)) ∧
      Completes (.fsgnjxS rd rs1 rs1) s (fun t => WroteFp .S s t rd (BitVec.ofNat 32 (a % 2 ^ 31), 0))) ∧
    (HasFD s →
      let a := (s.readF rs1).toNat
      let b := (s.readF rs2).toNat
      let word (sign : Nat) := BitVec.ofNat 64 (sign * 2 ^ 63 + a % 2 ^ 63)
      Completes (.fsgnjD rd rs1 rs2) s (fun t => WroteFp .D s t rd (word (b / 2 ^ 63), 0)) ∧
      Completes (.fsgnjnD rd rs1 rs2) s (fun t => WroteFp .D s t rd (word (1 - b / 2 ^ 63), 0)) ∧
      Completes (.fsgnjxD rd rs1 rs2) s (fun t => WroteFp .D s t rd (word ((a / 2 ^ 63 + b / 2 ^ 63) % 2), 0)) ∧
      Completes (.fsgnjxD rd rs1 rs1) s (fun t => WroteFp .D s t rd (BitVec.ofNat 64 (a % 2 ^ 63), 0)))

/-- 46_fp_sign_move.md rules R267 to R270: raw moves, FMV.X.W without the unbox check (decision D12) and sign-extended,
FMV.W.X boxed with the higher source bits ignored (decision D40); FMV.X.D and FMV.D.X need RV64. -/
def Obligations.MovesCopyRawBits : Prop :=
  ∀ (xr : XReg) (fr : FReg) (s : State),
    (HasF s →
      Completes (.fmvXW xr fr) s (fun t => WroteX s t xr (sextXlen s ((s.readF fr).toNat : Int)) 0) ∧
      Completes (.fmvWX fr xr) s (fun t =>
        WroteF s t fr (BitVec.ofNat 64 ((2 ^ 32 - 1) * 2 ^ 32 + (s.readX xr).toNat % 2 ^ 32)) 0)) ∧
    (HasFD s → s.rv = .rv64 →
      Completes (.fmvXD xr fr) s (fun t => WroteX s t xr (s.readF fr) 0) ∧
      Completes (.fmvDX fr xr) s (fun t => WroteF s t fr (s.readX xr) 0)) ∧
    (s.rv = .rv32 → RunsIllegal (.fmvXD xr fr) s ∧ RunsIllegal (.fmvDX fr xr) s)

/-! ### Floating-point numerics (the rules are those 42_fp_numerics.md to 45_fp_compare_class.md supply, log entry 12) -/

/-- 42_fp_numerics.md rules R152, R153, R155: where no overflow is raised the result is the correct rounding of ±a among
the finite words of the format; the result has the sign of the value, also as a zero. -/
def Obligations.RoundingIsCorrect : Prop :=
  ∀ (F : Fmt) (neg : Bool) (a : Mag) (mode : Mode), a.positive →
    signOf F (roundF F neg a mode).1 = neg ∧
    (¬ hasFlag (roundF F neg a mode).2 FpFlag.of → Rounds F mode (signedMag neg a) (roundF F neg a mode).1)

/-- 42_fp_numerics.md rule R154: overflow is raised, with NX, exactly where the magnitude rounded to p bits reaches
2^(emax+1), and the result is then ±∞ or ±MaxF by the mode and the sign. -/
def Obligations.OverflowIsByTheTable : Prop :=
  ∀ (F : Fmt) (neg : Bool) (a : Mag) (mode : Mode), a.positive →
    (hasFlag (roundF F neg a mode).2 FpFlag.of ↔ overflows F neg mode (magReal a)) ∧
    (overflows F neg mode (magReal a) →
      (roundF F neg a mode).2 = FpFlag.of ||| FpFlag.nx ∧
      (roundF F neg a mode).1 =
        match mode, neg with
        | .rne, _ => infinity F neg
        | .rmm, _ => infinity F neg
        | .rtz, _ => maxFinite F neg
        | .rdn, false => maxFinite F false
        | .rdn, true => infinity F true
        | .rup, false => infinity F false
        | .rup, true => maxFinite F true)

/-- 42_fp_numerics.md rules R153, R155: short of overflow, NX is raised exactly where the result differs from the value, UF
exactly where the value is moreover tiny after rounding (decision D9), and no other flag. -/
def Obligations.UnderflowAndInexactFlags : Prop :=
  ∀ (F : Fmt) (neg : Bool) (a : Mag) (mode : Mode), a.positive → ¬ overflows F neg mode (magReal a) →
    let r := roundF F neg a mode
    let inexact := (valueQ F r.1 : ℝ) ≠ signedMag neg a
    (hasFlag r.2 FpFlag.nx ↔ inexact) ∧
    (hasFlag r.2 FpFlag.uf ↔ inexact ∧ tinyAfterRounding F neg mode (magReal a)) ∧
    ¬ hasFlag r.2 FpFlag.nv ∧ ¬ hasFlag r.2 FpFlag.dz ∧ ¬ hasFlag r.2 FpFlag.of

/-- 43_fp_arith.md rules R180 to R183: on finite operands whose exact result is a nonzero real, each operation is one
rounding of that result. -/
def Obligations.ArithmeticRoundsTheExactResult : Prop :=
  ∀ (F : Fmt) (a b : BitVec F.width) (mode : Mode), isFinite F a = true → isFinite F b = true →
    (valueQ F a + valueQ F b ≠ 0 → ∃ m : Mag, m.positive ∧ magReal m = |(valueQ F a + valueQ F b : ℚ)| ∧
      fpAdd F a b mode = roundF F (decide (valueQ F a + valueQ F b < 0)) m mode) ∧
    (valueQ F a - valueQ F b ≠ 0 → ∃ m : Mag, m.positive ∧ magReal m = |(valueQ F a - valueQ F b : ℚ)| ∧
      fpSub F a b mode = roundF F (decide (valueQ F a - valueQ F b < 0)) m mode) ∧
    (valueQ F a * valueQ F b ≠ 0 → ∃ m : Mag, m.positive ∧ magReal m = |(valueQ F a * valueQ F b : ℚ)| ∧
      fpMul F a b mode = roundF F (decide (valueQ F a * valueQ F b < 0)) m mode) ∧
    (valueQ F a ≠ 0 → valueQ F b ≠ 0 → ∃ m : Mag, m.positive ∧ magReal m = |(valueQ F a / valueQ F b : ℚ)| ∧
      fpDiv F a b mode = roundF F (decide (valueQ F a / valueQ F b < 0)) m mode) ∧
    (0 < valueQ F a → ∃ m : Mag, m.positive ∧ magReal m = Real.sqrt (valueQ F a : ℝ) ∧
      fpSqrt F a mode = roundF F false m mode)

/-- 43_fp_arith.md rule R184: on finite operands, with (−1)^np·a·b + (−1)^nc·c not zero, the fused multiply-add is one
rounding of that exact value, not of a rounded product. -/
def Obligations.FusedMultiplyAddRoundsOnce : Prop :=
  ∀ (F : Fmt) (a b c : BitVec F.width) (np nc : Bool) (mode : Mode),
    isFinite F a = true → isFinite F b = true → isFinite F c = true →
    let v : ℚ := (if np then -1 else 1) * (valueQ F a * valueQ F b) + (if nc then -1 else 1) * valueQ F c
    v ≠ 0 → ∃ m : Mag, m.positive ∧ magReal m = |v| ∧ fpFma F a b c np nc mode = roundF F (decide (v < 0)) m mode

/-- 44_fp_convert.md rules R211, R212: a conversion to a format is one rounding of the integer, or of the value of the
finite word; a zero integer is +0, a zero word keeps its sign, ±∞ is ±∞; single to double is exact. -/
def Obligations.ConversionsToFloatRoundOnce : Prop :=
  (∀ (F : Fmt) (n : Int) (mode : Mode), n ≠ 0 → ∃ m : Mag, m.positive ∧ magReal m = |(n : ℝ)| ∧
    intToFp F n mode = roundF F (decide (n < 0)) m mode) ∧
  (∀ (F : Fmt) (mode : Mode), intToFp F 0 mode = (0, 0)) ∧
  (∀ (Fs Fd : Fmt) (a : BitVec Fs.width) (mode : Mode), isFinite Fs a = true → valueQ Fs a ≠ 0 →
    ∃ m : Mag, m.positive ∧ magReal m = |(valueQ Fs a : ℝ)| ∧ fpToFp Fs Fd a mode = roundF Fd (signOf Fs a) m mode) ∧
  (∀ (Fs Fd : Fmt) (a : BitVec Fs.width) (mode : Mode),
    (isZero Fs a = true → fpToFp Fs Fd a mode = (signedZero Fd (signOf Fs a), 0)) ∧
    (isInf Fs a = true → fpToFp Fs Fd a mode = (infinity Fd (signOf Fs a), 0))) ∧
  (∀ (a : BitVec 32) (mode : Mode), isFinite .S a = true →
    valueQ .D (fpToFp .S .D a mode).1 = valueQ .S a ∧ (fpToFp .S .D a mode).2 = 0)

/-- 44_fp_convert.md rule R210: a finite word goes to the integer its value rounds to where that is in range, with NX iff
it is inexact; out of range and for ±∞ the result is the near end of the range, for a NaN the upper end, each with NV alone
(decision D11). -/
def Obligations.FloatToIntegerRoundsThenClamps : Prop :=
  ∀ (F : Fmt) (k : IntKind) (a : BitVec F.width) (mode : Mode),
    let n := roundedInt mode (valueQ F a)
    let lo : Int := match k with
      | .w => -2 ^ 31
      | .l => -2 ^ 63
      | .wu | .lu => 0
    let hi : Int := match k with
      | .w => 2 ^ 31 - 1
      | .wu => 2 ^ 32 - 1
      | .l => 2 ^ 63 - 1
      | .lu => 2 ^ 64 - 1
    (isNaN F a = true → fpToInt F k a mode = (hi, FpFlag.nv)) ∧
    (isInf F a = true → fpToInt F k a mode = (if signOf F a then lo else hi, FpFlag.nv)) ∧
    (isFinite F a = true → n < lo → fpToInt F k a mode = (lo, FpFlag.nv)) ∧
    (isFinite F a = true → hi < n → fpToInt F k a mode = (hi, FpFlag.nv)) ∧
    (isFinite F a = true → lo ≤ n → n ≤ hi →
      fpToInt F k a mode = (n, if (n : ℚ) = valueQ F a then 0 else FpFlag.nx))

/-- 42_fp_numerics.md rules R157, R158 and 43_fp_arith.md rules R180 to R184: where each arithmetic operation raises NV and
where DZ; the result of a division that raises DZ is ∞ with the XOR of the signs; and what infinite operands give where the
operation is not invalid, with no flag: ∞ of the operand's or the product's sign, or for a finite word over ∞ a zero. -/
def Obligations.InvalidAndDivideByZero : Prop :=
  ∀ (F : Fmt) (a b c : BitVec F.width) (np nc : Bool) (mode : Mode),
    let opposite (x y : BitVec F.width) := isInf F x = true ∧ isInf F y = true ∧ signOf F x ≠ signOf F y
    let zeroTimesInf := (isZero F a = true ∧ isInf F b = true) ∨ (isInf F a = true ∧ isZero F b = true)
    let signalling := isSNaN F a = true ∨ isSNaN F b = true
    let nan := isNaN F a = true ∨ isNaN F b = true
    (hasFlag (fpAdd F a b mode).2 FpFlag.nv ↔ signalling ∨ opposite a b) ∧
    (hasFlag (fpSub F a b mode).2 FpFlag.nv ↔
      signalling ∨ (isInf F a = true ∧ isInf F b = true ∧ signOf F a = signOf F b)) ∧
    (hasFlag (fpMul F a b mode).2 FpFlag.nv ↔ signalling ∨ zeroTimesInf) ∧
    (hasFlag (fpDiv F a b mode).2 FpFlag.nv ↔
      signalling ∨ (isInf F a = true ∧ isInf F b = true) ∨ (isZero F a = true ∧ isZero F b = true)) ∧
    (hasFlag (fpSqrt F a mode).2 FpFlag.nv ↔
      isSNaN F a = true ∨ (isNaN F a = false ∧ isZero F a = false ∧ signOf F a = true)) ∧
    (hasFlag (fpFma F a b c np nc mode).2 FpFlag.nv ↔
      zeroTimesInf ∨ signalling ∨ isSNaN F c = true ∨
      (¬ nan ∧ (isInf F a = true ∨ isInf F b = true) ∧ isInf F c = true ∧
        (signOf F a ^^ signOf F b ^^ np) ≠ (signOf F c ^^ nc))) ∧
    (hasFlag (fpDiv F a b mode).2 FpFlag.dz ↔ isFinite F a = true ∧ isZero F a = false ∧ isZero F b = true) ∧
    (hasFlag (fpDiv F a b mode).2 FpFlag.dz →
      fpDiv F a b mode = (infinity F (signOf F a ^^ signOf F b), FpFlag.dz)) ∧
    ¬ hasFlag (fpAdd F a b mode).2 FpFlag.dz ∧ ¬ hasFlag (fpSub F a b mode).2 FpFlag.dz ∧
    ¬ hasFlag (fpMul F a b mode).2 FpFlag.dz ∧ ¬ hasFlag (fpSqrt F a mode).2 FpFlag.dz ∧
    ¬ hasFlag (fpFma F a b c np nc mode).2 FpFlag.dz ∧
    (isInf F a = true → isFinite F b = true →
      fpAdd F a b mode = (a, 0) ∧ fpSub F a b mode = (a, 0) ∧
      fpDiv F a b mode = (infinity F (signOf F a ^^ signOf F b), 0)) ∧
    (isFinite F a = true → isInf F b = true →
      fpAdd F a b mode = (b, 0) ∧ fpSub F a b mode = (infinity F (!signOf F b), 0) ∧
      fpDiv F a b mode = (signedZero F (signOf F a ^^ signOf F b), 0)) ∧
    (isInf F a = true → isInf F b = true →
      (signOf F a = signOf F b → fpAdd F a b mode = (a, 0)) ∧ (signOf F a ≠ signOf F b → fpSub F a b mode = (a, 0))) ∧
    (¬ nan → isInf F a = true ∨ isInf F b = true → ¬ zeroTimesInf →
      fpMul F a b mode = (infinity F (signOf F a ^^ signOf F b), 0)) ∧
    (isInf F a = true → signOf F a = false → fpSqrt F a mode = (a, 0)) ∧
    (let ps := signOf F a ^^ signOf F b ^^ np
     let cs := signOf F c ^^ nc
     (¬ nan → isNaN F c = false → isInf F a = true ∨ isInf F b = true → ¬ zeroTimesInf → (isInf F c = true → ps = cs) →
        fpFma F a b c np nc mode = (infinity F ps, 0)) ∧
     (isFinite F a = true → isFinite F b = true → isInf F c = true →
        fpFma F a b c np nc mode = (infinity F cs, 0)))

/-- 42_fp_numerics.md rules R144 (decision D8), R157: a NaN any computational operation gives is the canonical one, and
where an arithmetic operation raises NV its result is the canonical NaN with NV alone; a quiet NaN operand, with no
signalling one and no 0 × ∞ in a fused multiply-add, gives the canonical NaN and no flag; a format conversion gives a NaN
exactly for a NaN, with NV exactly for a signalling one. -/
def Obligations.NaNResultsAreCanonical : Prop :=
  (∀ (F : Fmt) (a b c : BitVec F.width) (np nc : Bool) (mode : Mode),
    ∀ r ∈ [fpAdd F a b mode, fpSub F a b mode, fpMul F a b mode, fpDiv F a b mode, fpSqrt F a mode,
        fpFma F a b c np nc mode],
      (isNaN F r.1 = true → r.1 = canonicalNaN F) ∧ (hasFlag r.2 FpFlag.nv → r = (canonicalNaN F, FpFlag.nv))) ∧
  (∀ (F : Fmt) (a b c : BitVec F.width) (np nc : Bool) (mode : Mode),
    let quiet : BitVec F.width × FpFlags := (canonicalNaN F, 0)
    (isSNaN F a = false → isSNaN F b = false → isQNaN F a = true ∨ isQNaN F b = true →
      fpAdd F a b mode = quiet ∧ fpSub F a b mode = quiet ∧ fpMul F a b mode = quiet ∧ fpDiv F a b mode = quiet) ∧
    (isQNaN F a = true → fpSqrt F a mode = quiet) ∧
    (isSNaN F a = false → isSNaN F b = false → isSNaN F c = false →
      isQNaN F a = true ∨ isQNaN F b = true ∨ isQNaN F c = true →
      ¬ (isInf F a = true ∧ isZero F b = true) → ¬ (isZero F a = true ∧ isInf F b = true) →
      fpFma F a b c np nc mode = quiet)) ∧
  (∀ (Fs Fd : Fmt) (a : BitVec Fs.width) (mode : Mode),
    (isNaN Fd (fpToFp Fs Fd a mode).1 = true ↔ isNaN Fs a = true) ∧
    (isNaN Fs a = true → fpToFp Fs Fd a mode = (canonicalNaN Fd, if isSNaN Fs a then FpFlag.nv else 0))) ∧
  canonicalNaN .S = 0x7FC00000#32 ∧ canonicalNaN .D = 0x7FF8000000000000#64

/-- 42_fp_numerics.md rule R156: the sign of an exactly zero result; no flag is raised by one. -/
def Obligations.SignsOfExactZeros : Prop :=
  ∀ (F : Fmt) (a b c : BitVec F.width) (np nc : Bool) (mode : Mode),
    isFinite F a = true → isFinite F b = true → isFinite F c = true →
    (valueQ F a * valueQ F b = 0 → fpMul F a b mode = (signedZero F (signOf F a ^^ signOf F b), 0)) ∧
    (valueQ F a = 0 → valueQ F b ≠ 0 → fpDiv F a b mode = (signedZero F (signOf F a ^^ signOf F b), 0)) ∧
    (valueQ F a + valueQ F b = 0 →
      fpAdd F a b mode =
        (signedZero F (if isZero F a = true ∧ signOf F a = signOf F b then signOf F a else decide (mode = .rdn)), 0)) ∧
    (valueQ F a - valueQ F b = 0 →
      fpSub F a b mode =
        (signedZero F (if isZero F a = true ∧ signOf F a ≠ signOf F b then signOf F a else decide (mode = .rdn)), 0)) ∧
    (valueQ F a = 0 → fpSqrt F a mode = (a, 0)) ∧
    (let p := (if np then -1 else 1) * (valueQ F a * valueQ F b)
     let q := (if nc then -1 else 1) * valueQ F c
     p + q = 0 →
      fpFma F a b c np nc mode =
        (signedZero F (if p = 0 ∧ (signOf F a ^^ signOf F b ^^ np) = (signOf F c ^^ nc)
          then signOf F c ^^ nc else decide (mode = .rdn)), 0))

/-- 45_fp_compare_class.md rule R240, the six steps of the ladder in order: the first whose condition holds decides. -/
def Obligations.MinMaxLadder : Prop :=
  ∀ (F : Fmt) (isMax : Bool) (a b : BitVec F.width),
    (isSNaN F a = true → isSNaN F b = true → fpMinMax F isMax a b = (canonicalNaN F, FpFlag.nv)) ∧
    (isSNaN F a = true → isSNaN F b = false → fpMinMax F isMax a b = (b, FpFlag.nv)) ∧
    (isSNaN F a = false → isSNaN F b = true → fpMinMax F isMax a b = (a, FpFlag.nv)) ∧
    (isQNaN F a = true → isQNaN F b = true → fpMinMax F isMax a b = (canonicalNaN F, 0)) ∧
    (isQNaN F a = true → isNaN F b = false → fpMinMax F isMax a b = (b, 0)) ∧
    (isNaN F a = false → isQNaN F b = true → fpMinMax F isMax a b = (a, 0)) ∧
    (isZero F a = true → isZero F b = true → signOf F a ≠ signOf F b →
      fpMinMax F isMax a b = (signedZero F (!isMax), 0)) ∧
    (isNaN F a = false → isNaN F b = false → ¬ (isZero F a = true ∧ isZero F b = true) →
      (below F a b → fpMinMax F isMax a b = (if isMax then b else a, 0)) ∧
      (below F b a → fpMinMax F isMax a b = (if isMax then a else b, 0)) ∧
      (¬ below F a b → ¬ below F b a → a = b ∧ fpMinMax F isMax a b = (a, 0))) ∧
    (isZero F a = true → a = b → fpMinMax F isMax a b = (a, 0))

/-- 45_fp_compare_class.md rule R245: the comparison is on values, with −0 = +0 and −∞ < finite < +∞; any NaN gives 0; NV
comes from an sNaN in FEQ, from any NaN in FLT and FLE. -/
def Obligations.ComparisonsAreOnValues : Prop :=
  ∀ (F : Fmt) (a b : BitVec F.width),
    let nan := isNaN F a = true ∨ isNaN F b = true
    let snan := isSNaN F a = true ∨ isSNaN F b = true
    (nan → ∀ op, (fpCompare F op a b).1 = 0) ∧
    (nan → snan → ∀ op, (fpCompare F op a b).2 = FpFlag.nv) ∧
    (nan → ¬ snan → (fpCompare F .eq a b).2 = 0 ∧ (fpCompare F .lt a b).2 = FpFlag.nv ∧
      (fpCompare F .le a b).2 = FpFlag.nv) ∧
    (¬ nan → ∀ op, (fpCompare F op a b).2 = 0 ∧ ((fpCompare F op a b).1 = 0 ∨ (fpCompare F op a b).1 = 1)) ∧
    (¬ nan → ((fpCompare F .eq a b).1 = 1 ↔ equalValue F a b)) ∧
    (¬ nan → ((fpCompare F .lt a b).1 = 1 ↔ below F a b)) ∧
    (¬ nan → ((fpCompare F .le a b).1 = 1 ↔ below F a b ∨ equalValue F a b))

/-- 45_fp_compare_class.md rule R252: the bit of each class, and exactly one bit is set. -/
def Obligations.ClassifyIsOneHot : Prop :=
  ∀ (F : Fmt) (x : BitVec F.width),
    (∃ k, k < 10 ∧ fpClass F x = 1#64 <<< k) ∧
    (fpClass F x = 0x001 ↔ isInf F x = true ∧ signOf F x = true) ∧
    (fpClass F x = 0x002 ↔ 0 < expOf F x ∧ expOf F x < F.expOnes ∧ signOf F x = true) ∧
    (fpClass F x = 0x004 ↔ isSubnormal F x = true ∧ signOf F x = true) ∧
    (fpClass F x = 0x008 ↔ isZero F x = true ∧ signOf F x = true) ∧
    (fpClass F x = 0x010 ↔ isZero F x = true ∧ signOf F x = false) ∧
    (fpClass F x = 0x020 ↔ isSubnormal F x = true ∧ signOf F x = false) ∧
    (fpClass F x = 0x040 ↔ 0 < expOf F x ∧ expOf F x < F.expOnes ∧ signOf F x = false) ∧
    (fpClass F x = 0x080 ↔ isInf F x = true ∧ signOf F x = false) ∧
    (fpClass F x = 0x100 ↔ isSNaN F x = true) ∧
    (fpClass F x = 0x200 ↔ isQNaN F x = true)

/-- 42_fp_numerics.md rules R145, R146. -/
def Obligations.BoxAndUnbox : Prop :=
  (∀ r : Word, unboxS r = if r.toNat / 2 ^ 32 = 2 ^ 32 - 1 then BitVec.ofNat 32 r.toNat else 0x7FC00000#32) ∧
  (∀ v : BitVec 32, (boxS v).toNat = (2 ^ 32 - 1) * 2 ^ 32 + v.toNat) ∧
  (∀ v : BitVec 32, unboxS (boxS v) = v)

/-! ### Memory -/

/-- 47_fp_load_store.md rules R280, R281: FLW and FLD complete where translation succeeds and the host performs the read.
The value is the little-endian one (decision D13) at the physical address, boxed for FLW and unchecked, and nothing changes
but f[rd], the PC and what the translation wrote in memory. -/
def Obligations.LoadsComplete : Prop :=
  ∀ (rd : FReg) (rs1 : XReg) (imm : BitVec 12) (s s1 : State) (pa : Word),
    translate s .load (addressOf s rs1 imm) = .ok pa s1 →
    (HasF s → memReply s1 .load .word pa = .perform →
      Completes (.flw rd rs1 imm) s fun t =>
        WroteF s1 t rd (BitVec.ofNat 64 ((2 ^ 32 - 1) * 2 ^ 32 + leValue s1 pa 4)) 0 ∧ s1 = { s with mem := s1.mem }) ∧
    (HasFD s → memReply s1 .load .double pa = .perform →
      Completes (.fld rd rs1 imm) s fun t =>
        WroteF s1 t rd (BitVec.ofNat 64 (leValue s1 pa 8)) 0 ∧ s1 = { s with mem := s1.mem })

/-- 47_fp_load_store.md rules R282, R283: FSW and FSD complete where translation succeeds and the host performs the write:
the raw low 32 bits (decision D12), or all 64, little-endian at the physical address; every other byte reads as the
translation left it, and nothing else changes but the PC. -/
def Obligations.StoresComplete : Prop :=
  ∀ (rs2 : FReg) (rs1 : XReg) (imm : BitVec 12) (s s1 : State) (pa : Word), s.mem.wf = true →
    translate s .store (addressOf s rs1 imm) = .ok pa s1 →
    (HasF s → memReply s1 .store .word pa = .perform →
      Completes (.fsw rs2 rs1 imm) s fun t =>
        Stored s1 t pa 4 ((s.readF rs2).toNat % 2 ^ 32) ∧ s1 = { s with mem := s1.mem }) ∧
    (HasFD s → memReply s1 .store .double pa = .perform →
      Completes (.fsd rs2 rs1 imm) s fun t =>
        Stored s1 t pa 8 (s.readF rs2).toNat ∧ s1 = { s with mem := s1.mem })

/-- 47_fp_load_store.md rule R285 and 60_exceptions.md rule R305: where translation or the memory call of FLW, FLD, FSW or
FSD fails, the instruction is legal and the state is the failing call's with mcause the code and mtval the virtual address;
the PC, every register, fflags and memory are as that call left them. -/
def Obligations.MemoryErrorsAreRecorded : Prop :=
  ∀ (fr : FReg) (rs1 : XReg) (imm : BitVec 12) (s : State),
    let ea := addressOf s rs1 imm
    let trapped (m : State) (code : Word) : Result := .next { m with mcause := code, mtval := ea, legal := true }
    (∀ code m, translate s .load ea = .error code m →
      (HasF s → exec (.flw fr rs1 imm) s = trapped m code) ∧ (HasFD s → exec (.fld fr rs1 imm) s = trapped m code)) ∧
    (∀ code m, translate s .store ea = .error code m →
      (HasF s → exec (.fsw fr rs1 imm) s = trapped m code) ∧ (HasFD s → exec (.fsd fr rs1 imm) s = trapped m code)) ∧
    (∀ pa m1 code m, translate s .load ea = .ok pa m1 →
      (HasF s → memRead m1 m1.host.loadAccessFault .word pa = .error code m →
        exec (.flw fr rs1 imm) s = trapped m code) ∧
      (HasFD s → memRead m1 m1.host.loadAccessFault .double pa = .error code m →
        exec (.fld fr rs1 imm) s = trapped m code)) ∧
    (∀ pa m1 code m, translate s .store ea = .ok pa m1 →
      (HasF s → memWrite m1 .word pa (BitVec.ofNat 64 ((s.readF fr).toNat % 2 ^ 32)) = .error code m →
        exec (.fsw fr rs1 imm) s = trapped m code) ∧
      (HasFD s → memWrite m1 .double pa (s.readF fr) = .error code m → exec (.fsd fr rs1 imm) s = trapped m code))

/-- 20_memory.md rule R52: with VM inactive the physical address is the effective one (decision D24) and the state the
input's; with VM active the first table row that covers the address answers (the model's form of `vm_translate`, log entry
8): the offset is kept, only the bytes the walk writes change, and an address no row covers is a page fault. -/
def Obligations.TranslationRule : Prop :=
  ∀ (s : State) (kind : Access) (ea : Word),
    (s.host.vmActive = false → translate s kind ea = .ok ea s) ∧
    (s.host.vmActive = true → (∀ r ∈ s.host.translations, r.size ≤ (ea - r.base).toNat) →
      translate s kind ea = .error (pageFaultCode s.host kind) s) ∧
    (∀ before r after, s.host.vmActive = true → s.host.translations = before ++ r :: after →
      (∀ q ∈ before, q.size ≤ (ea - q.base).toNat) → (ea - r.base).toNat < r.size →
      (∀ pa ts, translationReply r kind = .mapTo pa ts → ∃ m, translate s kind ea = .ok (pa + (ea - r.base)) m ∧
        m = { s with mem := m.mem } ∧ ∀ a, (∀ w ∈ ts, a ≠ w.addr.toNat) → m.mem.read a = s.mem.read a) ∧
      (∀ code ts, translationReply r kind = .error code ts → ∃ m, translate s kind ea = .error code m ∧
        m = { s with mem := m.mem } ∧ ∀ a, (∀ w ∈ ts, a ≠ w.addr.toNat) → m.mem.read a = s.mem.read a) ∧
      (translationReply r kind = .noReturn → translate s kind ea = .noReturn))

/-- 20_memory.md rules R53 to R56: what a memory call answers, by the host's reply (a plain table, log entries 9 and 10): the
little-endian value, or the write of exactly the bytes of the access, or the code, or the default code where the host has none
more specific; a failing call changes nothing. The reply is the host's misalignment code for a misaligned access where the
host has one (rule R56, decision D14), asked first; else the first region the access touches answers, and outside every
region the access is performed. -/
def Obligations.MemoryCallsByReply : Prop :=
  ∀ (s : State) (d : Word) (w : MemWidth) (pa v : Word),
    (memReply s .load w pa = .perform → memRead s d w pa = .ok (BitVec.ofNat 64 (leValue s pa w.bytes)) s) ∧
    (∀ code, memReply s .load w pa = .error (some code) → memRead s d w pa = .error code s) ∧
    (memReply s .load w pa = .error none → memRead s d w pa = .error d s) ∧
    (s.mem.wf = true → memReply s .store w pa = .perform → ∃ r m, memWrite s w pa v = .ok r m ∧ m = { s with mem := m.mem } ∧
      (∀ k, k < w.bytes → (m.mem.read (byteAddress pa k)).toNat = v.toNat / 256 ^ k % 256) ∧
      (∀ a, (∀ k, k < w.bytes → a ≠ byteAddress pa k) → m.mem.read a = s.mem.read a)) ∧
    (∀ code, memReply s .store w pa = .error (some code) → memWrite s w pa v = .error code s) ∧
    (memReply s .store w pa = .error none → memWrite s w pa v = .error s.host.storeAccessFault s) ∧
    (∀ loadCode storeCode, s.host.misaligned = .error loadCode storeCode → pa.toNat % w.bytes ≠ 0 →
      memReply s .load w pa = .error (some loadCode) ∧ memReply s .store w pa = .error (some storeCode)) ∧
    (s.host.misaligned = .perform ∨ pa.toNat % w.bytes = 0 →
      ((∀ r ∈ s.host.regions, ¬ Touches r pa w.bytes) →
        memReply s .load w pa = .perform ∧ memReply s .store w pa = .perform) ∧
      (∀ before r after, s.host.regions = before ++ r :: after → (∀ q ∈ before, ¬ Touches q pa w.bytes) →
        Touches r pa w.bytes → memReply s .load w pa = r.onLoad ∧ memReply s .store w pa = r.onStore))

/-- 93_implementation_defined.md section 1, last item: an instruction whose translation or memory call does not return is
stuck (the model's fault, log entry 11). -/
def Obligations.NeverReturningHostCallsFault : Prop :=
  ∀ (fr : FReg) (rs1 : XReg) (imm : BitVec 12) (s : State), HasFD s →
    let ea := addressOf s rs1 imm
    (translate s .load ea = .noReturn →
      exec (.flw fr rs1 imm) s = .fault .hostCallNeverReturns ∧ exec (.fld fr rs1 imm) s = .fault .hostCallNeverReturns) ∧
    (translate s .store ea = .noReturn →
      exec (.fsw fr rs1 imm) s = .fault .hostCallNeverReturns ∧ exec (.fsd fr rs1 imm) s = .fault .hostCallNeverReturns) ∧
    (∀ pa m, translate s .load ea = .ok pa m →
      (memReply m .load .word pa = .noReturn → exec (.flw fr rs1 imm) s = .fault .hostCallNeverReturns) ∧
      (memReply m .load .double pa = .noReturn → exec (.fld fr rs1 imm) s = .fault .hostCallNeverReturns)) ∧
    (∀ pa m, translate s .store ea = .ok pa m →
      (memReply m .store .word pa = .noReturn → exec (.fsw fr rs1 imm) s = .fault .hostCallNeverReturns) ∧
      (memReply m .store .double pa = .noReturn → exec (.fsd fr rs1 imm) s = .fault .hostCallNeverReturns))

/-- 20_memory.md rule R58 (its byte order is decision D13): with VM inactive and the accesses performed, FLW reads back and
boxes the low 32 bits an FSW of the same address wrote, FLD the 64 bits an FSD wrote, and FLD sees two FSW stores combined,
the word at the lower address low. -/
def Obligations.StoreThenLoadReadsBack : Prop :=
  ∀ (rd fr hi : FReg) (rs1 : XReg) (imm imm4 : BitVec 12) (s : State), HasFD s → s.host.vmActive = false →
    s.mem.wf = true → s.host.regions = [] → s.host.misaligned = .perform →
    (∃ t u, exec (.fsw fr rs1 imm) s = .next t ∧ exec (.flw rd rs1 imm) t = .next u ∧
      u.readF rd = BitVec.ofNat 64 ((2 ^ 32 - 1) * 2 ^ 32 + (s.readF fr).toNat % 2 ^ 32)) ∧
    (∃ t u, exec (.fsd fr rs1 imm) s = .next t ∧ exec (.fld rd rs1 imm) t = .next u ∧ u.readF rd = s.readF fr) ∧
    (addressOf s rs1 imm4 = addressOf s rs1 imm + 4 →
      ∃ t u v, exec (.fsw fr rs1 imm) s = .next t ∧ exec (.fsw hi rs1 imm4) t = .next u ∧
        exec (.fld rd rs1 imm) u = .next v ∧
        v.readF rd = BitVec.ofNat 64 ((s.readF hi).toNat % 2 ^ 32 * 2 ^ 32 + (s.readF fr).toNat % 2 ^ 32))
end

