-- ==== Sys2Proof/Laws/Encoding.lean ====
section
/-! SUPPORT. The layouts of 30_encoding.md: the number a layout stands for, each field read back from it, and the part of
a word that an opcode-table mask keeps. -/
namespace Sys2Proof.Laws

theorem append_toNat {n m : Nat} (a : BitVec n) (b : BitVec m) : (a ++ b).toNat = a.toNat * 2 ^ m + b.toNat := by
  rw [BitVec.toNat_append, ← Nat.shiftLeft_add_eq_or_of_lt b.isLt, Nat.shiftLeft_eq]

theorem extract_toNat {n : Nat} (w : BitVec n) (lo len : Nat) :
    (w.extractLsb' lo len).toNat = w.toNat / 2 ^ lo % 2 ^ len := by
  rw [BitVec.extractLsb'_toNat, Nat.shiftRight_eq_div_pow]

theorem rType_toNat (funct7 : BitVec 7) (rs2 rs1 : BitVec 5) (funct3 : BitVec 3) (rd : BitVec 5) (opcode : BitVec 7) :
    (rType funct7 rs2 rs1 funct3 rd opcode).toNat =
      funct7.toNat * 2 ^ 25 + rs2.toNat * 2 ^ 20 + rs1.toNat * 2 ^ 15 + funct3.toNat * 2 ^ 12 + rd.toNat * 2 ^ 7
        + opcode.toNat := by
  simp only [rType, append_toNat]
  omega

@[simp] theorem opcodeField_rType (funct7 : BitVec 7) (rs2 rs1 : BitVec 5) (funct3 : BitVec 3) (rd : BitVec 5) (opcode : BitVec 7) :
    opcodeField (rType funct7 rs2 rs1 funct3 rd opcode) = opcode := by
  apply BitVec.eq_of_toNat_eq
  rw [opcodeField, extract_toNat, rType_toNat]
  have := funct7.isLt
  have := rs2.isLt
  have := rs1.isLt
  have := funct3.isLt
  have := rd.isLt
  have := opcode.isLt
  omega

@[simp] theorem rdField_rType (funct7 : BitVec 7) (rs2 rs1 : BitVec 5) (funct3 : BitVec 3) (rd : BitVec 5) (opcode : BitVec 7) :
    rdField (rType funct7 rs2 rs1 funct3 rd opcode) = rd := by
  apply BitVec.eq_of_toNat_eq
  rw [rdField, extract_toNat, rType_toNat]
  have := funct7.isLt
  have := rs2.isLt
  have := rs1.isLt
  have := funct3.isLt
  have := rd.isLt
  have := opcode.isLt
  omega

@[simp] theorem funct3Field_rType (funct7 : BitVec 7) (rs2 rs1 : BitVec 5) (funct3 : BitVec 3) (rd : BitVec 5) (opcode : BitVec 7) :
    funct3Field (rType funct7 rs2 rs1 funct3 rd opcode) = funct3 := by
  apply BitVec.eq_of_toNat_eq
  rw [funct3Field, extract_toNat, rType_toNat]
  have := funct7.isLt
  have := rs2.isLt
  have := rs1.isLt
  have := funct3.isLt
  have := rd.isLt
  have := opcode.isLt
  omega

@[simp] theorem rs1Field_rType (funct7 : BitVec 7) (rs2 rs1 : BitVec 5) (funct3 : BitVec 3) (rd : BitVec 5) (opcode : BitVec 7) :
    rs1Field (rType funct7 rs2 rs1 funct3 rd opcode) = rs1 := by
  apply BitVec.eq_of_toNat_eq
  rw [rs1Field, extract_toNat, rType_toNat]
  have := funct7.isLt
  have := rs2.isLt
  have := rs1.isLt
  have := funct3.isLt
  have := rd.isLt
  have := opcode.isLt
  omega

@[simp] theorem rs2Field_rType (funct7 : BitVec 7) (rs2 rs1 : BitVec 5) (funct3 : BitVec 3) (rd : BitVec 5) (opcode : BitVec 7) :
    rs2Field (rType funct7 rs2 rs1 funct3 rd opcode) = rs2 := by
  apply BitVec.eq_of_toNat_eq
  rw [rs2Field, extract_toNat, rType_toNat]
  have := funct7.isLt
  have := rs2.isLt
  have := rs1.isLt
  have := funct3.isLt
  have := rd.isLt
  have := opcode.isLt
  omega

@[simp] theorem funct7Field_rType (funct7 : BitVec 7) (rs2 rs1 : BitVec 5) (funct3 : BitVec 3) (rd : BitVec 5) (opcode : BitVec 7) :
    funct7Field (rType funct7 rs2 rs1 funct3 rd opcode) = funct7 := by
  apply BitVec.eq_of_toNat_eq
  rw [funct7Field, extract_toNat, rType_toNat]
  have := funct7.isLt
  have := rs2.isLt
  have := rs1.isLt
  have := funct3.isLt
  have := rd.isLt
  have := opcode.isLt
  omega

theorem r4Type_toNat (rs3 : BitVec 5) (funct2 : BitVec 2) (rs2 rs1 : BitVec 5) (rm : BitVec 3) (rd : BitVec 5) (opcode : BitVec 7) :
    (r4Type rs3 funct2 rs2 rs1 rm rd opcode).toNat =
      rs3.toNat * 2 ^ 27 + funct2.toNat * 2 ^ 25 + rs2.toNat * 2 ^ 20 + rs1.toNat * 2 ^ 15 + rm.toNat * 2 ^ 12
        + rd.toNat * 2 ^ 7 + opcode.toNat := by
  simp only [r4Type, append_toNat]
  omega

@[simp] theorem opcodeField_r4Type (rs3 : BitVec 5) (funct2 : BitVec 2) (rs2 rs1 : BitVec 5) (rm : BitVec 3) (rd : BitVec 5) (opcode : BitVec 7) :
    opcodeField (r4Type rs3 funct2 rs2 rs1 rm rd opcode) = opcode := by
  apply BitVec.eq_of_toNat_eq
  rw [opcodeField, extract_toNat, r4Type_toNat]
  have := rs3.isLt
  have := funct2.isLt
  have := rs2.isLt
  have := rs1.isLt
  have := rm.isLt
  have := rd.isLt
  have := opcode.isLt
  omega

@[simp] theorem rdField_r4Type (rs3 : BitVec 5) (funct2 : BitVec 2) (rs2 rs1 : BitVec 5) (rm : BitVec 3) (rd : BitVec 5) (opcode : BitVec 7) :
    rdField (r4Type rs3 funct2 rs2 rs1 rm rd opcode) = rd := by
  apply BitVec.eq_of_toNat_eq
  rw [rdField, extract_toNat, r4Type_toNat]
  have := rs3.isLt
  have := funct2.isLt
  have := rs2.isLt
  have := rs1.isLt
  have := rm.isLt
  have := rd.isLt
  have := opcode.isLt
  omega

@[simp] theorem funct3Field_r4Type (rs3 : BitVec 5) (funct2 : BitVec 2) (rs2 rs1 : BitVec 5) (rm : BitVec 3) (rd : BitVec 5) (opcode : BitVec 7) :
    funct3Field (r4Type rs3 funct2 rs2 rs1 rm rd opcode) = rm := by
  apply BitVec.eq_of_toNat_eq
  rw [funct3Field, extract_toNat, r4Type_toNat]
  have := rs3.isLt
  have := funct2.isLt
  have := rs2.isLt
  have := rs1.isLt
  have := rm.isLt
  have := rd.isLt
  have := opcode.isLt
  omega

@[simp] theorem rs1Field_r4Type (rs3 : BitVec 5) (funct2 : BitVec 2) (rs2 rs1 : BitVec 5) (rm : BitVec 3) (rd : BitVec 5) (opcode : BitVec 7) :
    rs1Field (r4Type rs3 funct2 rs2 rs1 rm rd opcode) = rs1 := by
  apply BitVec.eq_of_toNat_eq
  rw [rs1Field, extract_toNat, r4Type_toNat]
  have := rs3.isLt
  have := funct2.isLt
  have := rs2.isLt
  have := rs1.isLt
  have := rm.isLt
  have := rd.isLt
  have := opcode.isLt
  omega

@[simp] theorem rs2Field_r4Type (rs3 : BitVec 5) (funct2 : BitVec 2) (rs2 rs1 : BitVec 5) (rm : BitVec 3) (rd : BitVec 5) (opcode : BitVec 7) :
    rs2Field (r4Type rs3 funct2 rs2 rs1 rm rd opcode) = rs2 := by
  apply BitVec.eq_of_toNat_eq
  rw [rs2Field, extract_toNat, r4Type_toNat]
  have := rs3.isLt
  have := funct2.isLt
  have := rs2.isLt
  have := rs1.isLt
  have := rm.isLt
  have := rd.isLt
  have := opcode.isLt
  omega

@[simp] theorem funct2Field_r4Type (rs3 : BitVec 5) (funct2 : BitVec 2) (rs2 rs1 : BitVec 5) (rm : BitVec 3) (rd : BitVec 5) (opcode : BitVec 7) :
    funct2Field (r4Type rs3 funct2 rs2 rs1 rm rd opcode) = funct2 := by
  apply BitVec.eq_of_toNat_eq
  rw [funct2Field, extract_toNat, r4Type_toNat]
  have := rs3.isLt
  have := funct2.isLt
  have := rs2.isLt
  have := rs1.isLt
  have := rm.isLt
  have := rd.isLt
  have := opcode.isLt
  omega

@[simp] theorem rs3Field_r4Type (rs3 : BitVec 5) (funct2 : BitVec 2) (rs2 rs1 : BitVec 5) (rm : BitVec 3) (rd : BitVec 5) (opcode : BitVec 7) :
    rs3Field (r4Type rs3 funct2 rs2 rs1 rm rd opcode) = rs3 := by
  apply BitVec.eq_of_toNat_eq
  rw [rs3Field, extract_toNat, r4Type_toNat]
  have := rs3.isLt
  have := funct2.isLt
  have := rs2.isLt
  have := rs1.isLt
  have := rm.isLt
  have := rd.isLt
  have := opcode.isLt
  omega

theorem iType_toNat (imm : BitVec 12) (rs1 : BitVec 5) (funct3 : BitVec 3) (rd : BitVec 5) (opcode : BitVec 7) :
    (iType imm rs1 funct3 rd opcode).toNat =
      imm.toNat * 2 ^ 20 + rs1.toNat * 2 ^ 15 + funct3.toNat * 2 ^ 12 + rd.toNat * 2 ^ 7 + opcode.toNat := by
  simp only [iType, append_toNat]
  omega

@[simp] theorem opcodeField_iType (imm : BitVec 12) (rs1 : BitVec 5) (funct3 : BitVec 3) (rd : BitVec 5) (opcode : BitVec 7) :
    opcodeField (iType imm rs1 funct3 rd opcode) = opcode := by
  apply BitVec.eq_of_toNat_eq
  rw [opcodeField, extract_toNat, iType_toNat]
  have := imm.isLt
  have := rs1.isLt
  have := funct3.isLt
  have := rd.isLt
  have := opcode.isLt
  omega

@[simp] theorem rdField_iType (imm : BitVec 12) (rs1 : BitVec 5) (funct3 : BitVec 3) (rd : BitVec 5) (opcode : BitVec 7) :
    rdField (iType imm rs1 funct3 rd opcode) = rd := by
  apply BitVec.eq_of_toNat_eq
  rw [rdField, extract_toNat, iType_toNat]
  have := imm.isLt
  have := rs1.isLt
  have := funct3.isLt
  have := rd.isLt
  have := opcode.isLt
  omega

@[simp] theorem funct3Field_iType (imm : BitVec 12) (rs1 : BitVec 5) (funct3 : BitVec 3) (rd : BitVec 5) (opcode : BitVec 7) :
    funct3Field (iType imm rs1 funct3 rd opcode) = funct3 := by
  apply BitVec.eq_of_toNat_eq
  rw [funct3Field, extract_toNat, iType_toNat]
  have := imm.isLt
  have := rs1.isLt
  have := funct3.isLt
  have := rd.isLt
  have := opcode.isLt
  omega

@[simp] theorem rs1Field_iType (imm : BitVec 12) (rs1 : BitVec 5) (funct3 : BitVec 3) (rd : BitVec 5) (opcode : BitVec 7) :
    rs1Field (iType imm rs1 funct3 rd opcode) = rs1 := by
  apply BitVec.eq_of_toNat_eq
  rw [rs1Field, extract_toNat, iType_toNat]
  have := imm.isLt
  have := rs1.isLt
  have := funct3.isLt
  have := rd.isLt
  have := opcode.isLt
  omega

@[simp] theorem immIField_iType (imm : BitVec 12) (rs1 : BitVec 5) (funct3 : BitVec 3) (rd : BitVec 5) (opcode : BitVec 7) :
    immIField (iType imm rs1 funct3 rd opcode) = imm := by
  apply BitVec.eq_of_toNat_eq
  rw [immIField, extract_toNat, iType_toNat]
  have := imm.isLt
  have := rs1.isLt
  have := funct3.isLt
  have := rd.isLt
  have := opcode.isLt
  omega

theorem sType_toNat (imm : BitVec 12) (rs2 rs1 : BitVec 5) (funct3 : BitVec 3) (opcode : BitVec 7) :
    (sType imm rs2 rs1 funct3 opcode).toNat =
      imm.toNat / 2 ^ 5 * 2 ^ 25 + rs2.toNat * 2 ^ 20 + rs1.toNat * 2 ^ 15 + funct3.toNat * 2 ^ 12
        + imm.toNat % 2 ^ 5 * 2 ^ 7 + opcode.toNat := by
  simp only [sType, append_toNat, extract_toNat]
  have := imm.isLt
  omega

@[simp] theorem opcodeField_sType (imm : BitVec 12) (rs2 rs1 : BitVec 5) (funct3 : BitVec 3) (opcode : BitVec 7) :
    opcodeField (sType imm rs2 rs1 funct3 opcode) = opcode := by
  apply BitVec.eq_of_toNat_eq
  rw [opcodeField, extract_toNat, sType_toNat]
  have hi := Nat.div_lt_of_lt_mul (show imm.toNat < 2 ^ 5 * 2 ^ 7 from imm.isLt)
  have lo := Nat.mod_lt imm.toNat (show 2 ^ 5 > 0 by decide)
  generalize imm.toNat / 2 ^ 5 = h at *
  generalize imm.toNat % 2 ^ 5 = l at *
  have := rs2.isLt
  have := rs1.isLt
  have := funct3.isLt
  have := opcode.isLt
  omega

@[simp] theorem funct3Field_sType (imm : BitVec 12) (rs2 rs1 : BitVec 5) (funct3 : BitVec 3) (opcode : BitVec 7) :
    funct3Field (sType imm rs2 rs1 funct3 opcode) = funct3 := by
  apply BitVec.eq_of_toNat_eq
  rw [funct3Field, extract_toNat, sType_toNat]
  have hi := Nat.div_lt_of_lt_mul (show imm.toNat < 2 ^ 5 * 2 ^ 7 from imm.isLt)
  have lo := Nat.mod_lt imm.toNat (show 2 ^ 5 > 0 by decide)
  generalize imm.toNat / 2 ^ 5 = h at *
  generalize imm.toNat % 2 ^ 5 = l at *
  have := rs2.isLt
  have := rs1.isLt
  have := funct3.isLt
  have := opcode.isLt
  omega

@[simp] theorem rs1Field_sType (imm : BitVec 12) (rs2 rs1 : BitVec 5) (funct3 : BitVec 3) (opcode : BitVec 7) :
    rs1Field (sType imm rs2 rs1 funct3 opcode) = rs1 := by
  apply BitVec.eq_of_toNat_eq
  rw [rs1Field, extract_toNat, sType_toNat]
  have hi := Nat.div_lt_of_lt_mul (show imm.toNat < 2 ^ 5 * 2 ^ 7 from imm.isLt)
  have lo := Nat.mod_lt imm.toNat (show 2 ^ 5 > 0 by decide)
  generalize imm.toNat / 2 ^ 5 = h at *
  generalize imm.toNat % 2 ^ 5 = l at *
  have := rs2.isLt
  have := rs1.isLt
  have := funct3.isLt
  have := opcode.isLt
  omega

@[simp] theorem rs2Field_sType (imm : BitVec 12) (rs2 rs1 : BitVec 5) (funct3 : BitVec 3) (opcode : BitVec 7) :
    rs2Field (sType imm rs2 rs1 funct3 opcode) = rs2 := by
  apply BitVec.eq_of_toNat_eq
  rw [rs2Field, extract_toNat, sType_toNat]
  have hi := Nat.div_lt_of_lt_mul (show imm.toNat < 2 ^ 5 * 2 ^ 7 from imm.isLt)
  have lo := Nat.mod_lt imm.toNat (show 2 ^ 5 > 0 by decide)
  generalize imm.toNat / 2 ^ 5 = h at *
  generalize imm.toNat % 2 ^ 5 = l at *
  have := rs2.isLt
  have := rs1.isLt
  have := funct3.isLt
  have := opcode.isLt
  omega

@[simp] theorem immSField_sType (imm : BitVec 12) (rs2 rs1 : BitVec 5) (funct3 : BitVec 3) (opcode : BitVec 7) :
    immSField (sType imm rs2 rs1 funct3 opcode) = imm := by
  apply BitVec.eq_of_toNat_eq
  rw [immSField, append_toNat, extract_toNat, extract_toNat, sType_toNat]
  refine Eq.trans ?_ (Nat.div_add_mod imm.toNat (2 ^ 5))
  have hi := Nat.div_lt_of_lt_mul (show imm.toNat < 2 ^ 5 * 2 ^ 7 from imm.isLt)
  have lo := Nat.mod_lt imm.toNat (show 2 ^ 5 > 0 by decide)
  generalize imm.toNat / 2 ^ 5 = h at *
  generalize imm.toNat % 2 ^ 5 = l at *
  have := rs2.isLt
  have := rs1.isLt
  have := funct3.isLt
  have := opcode.isLt
  omega

theorem rType_and (funct7 : BitVec 7) (rs2 rs1 : BitVec 5) (funct3 : BitVec 3) (rd : BitVec 5) (opcode : BitVec 7)
    (funct7' : BitVec 7) (rs2' rs1' : BitVec 5) (funct3' : BitVec 3) (rd' : BitVec 5) (opcode' : BitVec 7) :
    rType funct7 rs2 rs1 funct3 rd opcode &&& rType funct7' rs2' rs1' funct3' rd' opcode' =
      rType (funct7 &&& funct7') (rs2 &&& rs2') (rs1 &&& rs1') (funct3 &&& funct3') (rd &&& rd') (opcode &&& opcode') := by
  unfold rType
  exact BitVec.and_append.trans (congrArg (· ++ _) (BitVec.and_append.trans (congrArg (· ++ _) (BitVec.and_append.trans (congrArg (· ++ _) (BitVec.and_append.trans (congrArg (· ++ _) BitVec.and_append)))))))

theorem r4Type_and (rs3 : BitVec 5) (funct2 : BitVec 2) (rs2 rs1 : BitVec 5) (rm : BitVec 3) (rd : BitVec 5) (opcode : BitVec 7)
    (rs3' : BitVec 5) (funct2' : BitVec 2) (rs2' rs1' : BitVec 5) (rm' : BitVec 3) (rd' : BitVec 5) (opcode' : BitVec 7) :
    r4Type rs3 funct2 rs2 rs1 rm rd opcode &&& r4Type rs3' funct2' rs2' rs1' rm' rd' opcode' =
      r4Type (rs3 &&& rs3') (funct2 &&& funct2') (rs2 &&& rs2') (rs1 &&& rs1') (rm &&& rm') (rd &&& rd') (opcode &&& opcode') := by
  unfold r4Type
  exact BitVec.and_append.trans (congrArg (· ++ _) (BitVec.and_append.trans (congrArg (· ++ _) (BitVec.and_append.trans (congrArg (· ++ _) (BitVec.and_append.trans (congrArg (· ++ _) (BitVec.and_append.trans (congrArg (· ++ _) BitVec.and_append)))))))))

theorem iType_and (imm : BitVec 12) (rs1 : BitVec 5) (funct3 : BitVec 3) (rd : BitVec 5) (opcode : BitVec 7)
    (imm' : BitVec 12) (rs1' : BitVec 5) (funct3' : BitVec 3) (rd' : BitVec 5) (opcode' : BitVec 7) :
    iType imm rs1 funct3 rd opcode &&& iType imm' rs1' funct3' rd' opcode' =
      iType (imm &&& imm') (rs1 &&& rs1') (funct3 &&& funct3') (rd &&& rd') (opcode &&& opcode') := by
  unfold iType
  exact BitVec.and_append.trans (congrArg (· ++ _) (BitVec.and_append.trans (congrArg (· ++ _) (BitVec.and_append.trans (congrArg (· ++ _) BitVec.and_append)))))

theorem sType_and (imm : BitVec 12) (rs2 rs1 : BitVec 5) (funct3 : BitVec 3) (opcode : BitVec 7)
    (imm' : BitVec 12) (rs2' rs1' : BitVec 5) (funct3' : BitVec 3) (opcode' : BitVec 7) :
    sType imm rs2 rs1 funct3 opcode &&& sType imm' rs2' rs1' funct3' opcode' =
      sType (imm &&& imm') (rs2 &&& rs2') (rs1 &&& rs1') (funct3 &&& funct3') (opcode &&& opcode') := by
  simp only [sType, BitVec.extractLsb'_and]
  exact BitVec.and_append.trans (congrArg (· ++ _) (BitVec.and_append.trans (congrArg (· ++ _) (BitVec.and_append.trans (congrArg (· ++ _) (BitVec.and_append.trans (congrArg (· ++ _) BitVec.and_append)))))))

@[simp] theorem regOf_regBits (r : Fin 32) : regOf (regBits r) = r := rfl

@[simp] theorem rmOf_rmBits (rm : Rm) : rmOf (rmBits rm) = rm := by cases rm <;> rfl

/-! ### The fields a mask of the opcode table keeps -/

theorem rType_mask_funct3 (funct7 : BitVec 7) (rs2 rs1 : BitVec 5) (funct3 : BitVec 3) (rd : BitVec 5) (opcode : BitVec 7) :
    rType funct7 rs2 rs1 funct3 rd opcode &&& 0xFE00707F#32 = rType funct7 0 0 funct3 0 opcode := by
  have hm : (0xFE00707F#32 : InstWord) = rType (BitVec.allOnes 7) 0 0 (BitVec.allOnes 3) 0 (BitVec.allOnes 7) := by decide
  rw [hm, rType_and]
  simp only [BitVec.ofNat_eq_ofNat, BitVec.and_zero, BitVec.and_allOnes]

theorem rType_mask_rm (funct7 : BitVec 7) (rs2 rs1 : BitVec 5) (funct3 : BitVec 3) (rd : BitVec 5) (opcode : BitVec 7) :
    rType funct7 rs2 rs1 funct3 rd opcode &&& 0xFE00007F#32 = rType funct7 0 0 0 0 opcode := by
  have hm : (0xFE00007F#32 : InstWord) = rType (BitVec.allOnes 7) 0 0 0 0 (BitVec.allOnes 7) := by decide
  rw [hm, rType_and]
  simp only [BitVec.ofNat_eq_ofNat, BitVec.and_zero, BitVec.and_allOnes]

theorem rType_mask_rs2_funct3 (funct7 : BitVec 7) (rs2 rs1 : BitVec 5) (funct3 : BitVec 3) (rd : BitVec 5) (opcode : BitVec 7) :
    rType funct7 rs2 rs1 funct3 rd opcode &&& 0xFFF0707F#32 = rType funct7 rs2 0 funct3 0 opcode := by
  have hm : (0xFFF0707F#32 : InstWord) = rType (BitVec.allOnes 7) (BitVec.allOnes 5) 0 (BitVec.allOnes 3) 0 (BitVec.allOnes 7) := by decide
  rw [hm, rType_and]
  simp only [BitVec.ofNat_eq_ofNat, BitVec.and_zero, BitVec.and_allOnes]

theorem rType_mask_rs2_rm (funct7 : BitVec 7) (rs2 rs1 : BitVec 5) (funct3 : BitVec 3) (rd : BitVec 5) (opcode : BitVec 7) :
    rType funct7 rs2 rs1 funct3 rd opcode &&& 0xFFF0007F#32 = rType funct7 rs2 0 0 0 opcode := by
  have hm : (0xFFF0007F#32 : InstWord) = rType (BitVec.allOnes 7) (BitVec.allOnes 5) 0 0 0 (BitVec.allOnes 7) := by decide
  rw [hm, rType_and]
  simp only [BitVec.ofNat_eq_ofNat, BitVec.and_zero, BitVec.and_allOnes]

theorem r4Type_mask (rs3 : BitVec 5) (funct2 : BitVec 2) (rs2 rs1 : BitVec 5) (rm : BitVec 3) (rd : BitVec 5) (opcode : BitVec 7) :
    r4Type rs3 funct2 rs2 rs1 rm rd opcode &&& 0x0600007F#32 = r4Type 0 funct2 0 0 0 0 opcode := by
  have hm : (0x0600007F#32 : InstWord) = r4Type 0 (BitVec.allOnes 2) 0 0 0 0 (BitVec.allOnes 7) := by decide
  rw [hm, r4Type_and]
  simp only [BitVec.ofNat_eq_ofNat, BitVec.and_zero, BitVec.and_allOnes]

theorem iType_mask (imm : BitVec 12) (rs1 : BitVec 5) (funct3 : BitVec 3) (rd : BitVec 5) (opcode : BitVec 7) :
    iType imm rs1 funct3 rd opcode &&& 0x0000707F#32 = iType 0 0 funct3 0 opcode := by
  have hm : (0x0000707F#32 : InstWord) = iType 0 0 (BitVec.allOnes 3) 0 (BitVec.allOnes 7) := by decide
  rw [hm, iType_and]
  simp only [BitVec.ofNat_eq_ofNat, BitVec.and_zero, BitVec.and_allOnes]

theorem sType_mask (imm : BitVec 12) (rs2 rs1 : BitVec 5) (funct3 : BitVec 3) (opcode : BitVec 7) :
    sType imm rs2 rs1 funct3 opcode &&& 0x0000707F#32 = sType 0 0 0 funct3 opcode := by
  have hm : (0x0000707F#32 : InstWord) = sType 0 0 0 (BitVec.allOnes 3) (BitVec.allOnes 7) := by decide
  rw [hm, sType_and]
  simp only [BitVec.ofNat_eq_ofNat, BitVec.and_zero, BitVec.and_allOnes]

end Sys2Proof.Laws
end

