-- ==== Sys2Proof/Laws/Format.lean ====
section
/-! SUPPORT. The fields and classes of packed and negated words, and how the classes of a word exclude each other. Later
proofs cite these and do not unfold a field. -/
namespace Sys2Proof.Machine

/-! ### Packed words -/

theorem packFields_toNat (F : Fmt) (neg : Bool) (E T : Nat) (hE : E < 2 ^ F.expBits) (hT : T < 2 ^ F.fracBits) :
    (packFields F neg E T).toNat = (if neg then 2 ^ (F.width - 1) else 0) + E * 2 ^ F.fracBits + T := by
  rw [packFields, BitVec.toNat_ofNat, Nat.mod_eq_of_lt]
  cases F <;> cases neg <;> simp [Fmt.width, Fmt.expBits, Fmt.fracBits] at * <;> omega

theorem signOf_packFields (F : Fmt) (neg : Bool) (E T : Nat) (hE : E < 2 ^ F.expBits) (hT : T < 2 ^ F.fracBits) :
    signOf F (packFields F neg E T) = neg := by
  have h := packFields_toNat F neg E T hE hT
  rw [signOf, BitVec.msb_eq_decide, h]
  cases F <;> cases neg <;> simp [Fmt.width, Fmt.expBits, Fmt.fracBits] at * <;> omega

theorem expOf_packFields (F : Fmt) (neg : Bool) (E T : Nat) (hE : E < 2 ^ F.expBits) (hT : T < 2 ^ F.fracBits) :
    expOf F (packFields F neg E T) = E := by
  rw [expOf, packFields_toNat F neg E T hE hT]
  cases F <;> cases neg <;> simp [Fmt.width, Fmt.expBits, Fmt.fracBits] at * <;> omega

theorem fracOf_packFields (F : Fmt) (neg : Bool) (E T : Nat) (hE : E < 2 ^ F.expBits) (hT : T < 2 ^ F.fracBits) :
    fracOf F (packFields F neg E T) = T := by
  rw [fracOf, packFields_toNat F neg E T hE hT]
  cases F <;> cases neg <;> simp [Fmt.width, Fmt.expBits, Fmt.fracBits] at * <;> omega

@[simp] theorem signOf_infinity (F : Fmt) (neg : Bool) : signOf F (infinity F neg) = neg := by
  cases F <;> cases neg <;> rfl

@[simp] theorem isInf_infinity (F : Fmt) (neg : Bool) : isInf F (infinity F neg) = true := by
  cases F <;> cases neg <;> rfl

@[simp] theorem signOf_signedZero (F : Fmt) (neg : Bool) : signOf F (signedZero F neg) = neg := by
  cases F <;> cases neg <;> rfl

@[simp] theorem isZero_signedZero (F : Fmt) (neg : Bool) : isZero F (signedZero F neg) = true := by
  cases F <;> cases neg <;> rfl

@[simp] theorem isQNaN_canonicalNaN (F : Fmt) : isQNaN F (canonicalNaN F) = true := by cases F <;> rfl

/-! ### A word is its fields -/

theorem expOf_lt (F : Fmt) (x : BitVec F.width) : expOf F x < 2 ^ F.expBits := Nat.mod_lt _ (Nat.two_pow_pos _)

theorem fracOf_lt (F : Fmt) (x : BitVec F.width) : fracOf F x < 2 ^ F.fracBits := Nat.mod_lt _ (Nat.two_pow_pos _)

theorem packFields_fields (F : Fmt) (x : BitVec F.width) : packFields F (signOf F x) (expOf F x) (fracOf F x) = x := by
  apply BitVec.eq_of_toNat_eq
  rw [packFields_toNat F _ _ _ (expOf_lt F x) (fracOf_lt F x), signOf, BitVec.msb_eq_decide, expOf, fracOf]
  have h := x.isLt
  cases F <;> simp [Fmt.width, Fmt.expBits, Fmt.fracBits] at * <;> split <;> omega

/-- An infinite word is the infinity of its sign. -/
theorem eq_infinity {F : Fmt} {x : BitVec F.width} (h : isInf F x = true) : x = infinity F (signOf F x) := by
  simp only [isInf, Bool.and_eq_true, beq_iff_eq] at h
  rw [infinity, ← h.1, ← h.2, packFields_fields]

/-- A zero word is the zero of its sign. -/
theorem eq_signedZero {F : Fmt} {x : BitVec F.width} (h : isZero F x = true) : x = signedZero F (signOf F x) := by
  simp only [isZero, Bool.and_eq_true, beq_iff_eq] at h
  conv_lhs => rw [← packFields_fields F x, h.1, h.2]
  rfl

/-! ### The classes -/

/-- A NaN is quiet or signalling. -/
theorem isNaN_eq (F : Fmt) (x : BitVec F.width) : isNaN F x = (isQNaN F x || isSNaN F x) := by
  simp only [isQNaN, isSNaN]
  cases isNaN F x <;> cases (fracOf F x).testBit (F.fracBits - 1) <;> rfl

theorem isNaN_of_isSNaN {F : Fmt} {x : BitVec F.width} (h : isSNaN F x = true) : isNaN F x = true := by simp [isNaN_eq, h]

theorem isNaN_of_isQNaN {F : Fmt} {x : BitVec F.width} (h : isQNaN F x = true) : isNaN F x = true := by simp [isNaN_eq, h]

theorem isSNaN_of_isQNaN {F : Fmt} {x : BitVec F.width} (h : isQNaN F x = true) : isSNaN F x = false := by
  simp only [isQNaN, isSNaN, Bool.and_eq_true] at *
  simp [h.2]

theorem isNaN_of_isInf {F : Fmt} {x : BitVec F.width} (h : isInf F x = true) : isNaN F x = false := by
  simp only [isInf, isNaN, Bool.and_eq_true, beq_iff_eq] at *
  simp [h.2]

theorem isFinite_of_isInf {F : Fmt} {x : BitVec F.width} (h : isInf F x = true) : isFinite F x = false := by
  simp only [isInf, isFinite, Bool.and_eq_true, beq_iff_eq] at *
  simp [h.1]

theorem isFinite_of_isNaN {F : Fmt} {x : BitVec F.width} (h : isNaN F x = true) : isFinite F x = false := by
  simp only [isNaN, isFinite, Bool.and_eq_true, beq_iff_eq] at *
  simp [h.1]

theorem isFinite_of_isZero {F : Fmt} {x : BitVec F.width} (h : isZero F x = true) : isFinite F x = true := by
  simp only [isZero, isFinite, Bool.and_eq_true, beq_iff_eq] at *
  cases F <;> simp [h.1, Fmt.expOnes, Fmt.expBits]

theorem isNaN_of_isFinite {F : Fmt} {x : BitVec F.width} (h : isFinite F x = true) : isNaN F x = false := by
  cases hn : isNaN F x
  · rfl
  · simp [isFinite_of_isNaN hn] at h

theorem isInf_of_isFinite {F : Fmt} {x : BitVec F.width} (h : isFinite F x = true) : isInf F x = false := by
  cases hn : isInf F x
  · rfl
  · simp [isFinite_of_isInf hn] at h

theorem isZero_of_isInf {F : Fmt} {x : BitVec F.width} (h : isInf F x = true) : isZero F x = false := by
  cases hz : isZero F x
  · rfl
  · exact absurd (isFinite_of_isZero hz) (by simp [isFinite_of_isInf h])

/-! ### Negation flips the sign alone -/

/-- The bit that negation flips. -/
theorem signBit_toNat (F : Fmt) : (BitVec.ofNat F.width (2 ^ (F.width - 1))).toNat = 2 ^ (F.width - 1) := by
  cases F <;> rfl

@[simp] theorem signOf_negate (F : Fmt) (x : BitVec F.width) : signOf F (negate F x) = !signOf F x := by
  have h : (BitVec.ofNat F.width (2 ^ (F.width - 1))).msb = true := by cases F <;> rfl
  rw [signOf, negate, BitVec.msb_xor, h, Bool.xor_true, signOf]

@[simp] theorem expOf_negate (F : Fmt) (x : BitVec F.width) : expOf F (negate F x) = expOf F x := by
  apply Nat.eq_of_testBit_eq
  intro i
  by_cases hi : i < F.expBits
  · have h : F.width - 1 ≠ F.fracBits + i := by cases F <;> simp [Fmt.width, Fmt.expBits, Fmt.fracBits] at * <;> omega
    simp only [expOf, negate, BitVec.toNat_xor, signBit_toNat, Nat.testBit_mod_two_pow, Nat.testBit_div_two_pow,
      Nat.testBit_xor, Nat.testBit_two_pow, Nat.add_comm i, h, decide_false, Bool.xor_false]
  · simp [expOf, Nat.testBit_mod_two_pow, hi]

@[simp] theorem fracOf_negate (F : Fmt) (x : BitVec F.width) : fracOf F (negate F x) = fracOf F x := by
  apply Nat.eq_of_testBit_eq
  intro i
  by_cases hi : i < F.fracBits
  · have h : F.width - 1 ≠ i := by cases F <;> simp [Fmt.width, Fmt.fracBits] at * <;> omega
    simp only [fracOf, negate, BitVec.toNat_xor, signBit_toNat, Nat.testBit_mod_two_pow, Nat.testBit_xor,
      Nat.testBit_two_pow, h, decide_false, Bool.xor_false]
  · simp [fracOf, Nat.testBit_mod_two_pow, hi]

@[simp] theorem isInf_negate (F : Fmt) (x : BitVec F.width) : isInf F (negate F x) = isInf F x := by simp [isInf]
@[simp] theorem isNaN_negate (F : Fmt) (x : BitVec F.width) : isNaN F (negate F x) = isNaN F x := by simp [isNaN]
@[simp] theorem isQNaN_negate (F : Fmt) (x : BitVec F.width) : isQNaN F (negate F x) = isQNaN F x := by simp [isQNaN]
@[simp] theorem isSNaN_negate (F : Fmt) (x : BitVec F.width) : isSNaN F (negate F x) = isSNaN F x := by simp [isSNaN]
@[simp] theorem isZero_negate (F : Fmt) (x : BitVec F.width) : isZero F (negate F x) = isZero F x := by simp [isZero]
@[simp] theorem isFinite_negate (F : Fmt) (x : BitVec F.width) : isFinite F (negate F x) = isFinite F x := by
  simp [isFinite]
@[simp] theorem unitsOf_negate (F : Fmt) (x : BitVec F.width) : unitsOf F (negate F x) = unitsOf F x := by simp [unitsOf]

@[simp] theorem valueOf_negate (F : Fmt) (x : BitVec F.width) : valueOf F (negate F x) = -valueOf F x := by
  cases h : signOf F x <;> simp [valueOf, withSign, h]

end Sys2Proof.Machine
end

