-- ==== Sys2Proof/Laws/Memory.lean ====
section
/-! SUPPORT. Memory: a read after a write, and that every memory operation keeps the canonical form `Memory.wf`. -/
namespace Sys2Proof.Machine

/-! ### One byte -/

@[simp] theorem Memory.read_nil (a : Nat) : Memory.read [] a = Config.unlistedByte := rfl

theorem Memory.read_write_other (m : Memory) {a a' : Nat} (h : a' ≠ a) (b : Byte) : (m.write a b).read a' = m.read a' := by
  induction m with
  | nil =>
    unfold Memory.write
    split
    · rfl
    · simp [Memory.read, Ne.symm h]
  | cons c m ih =>
    unfold Memory.write
    split
    · split
      · rfl
      · simp [Memory.read, Ne.symm h]
    · split
      · next hac =>
        have hc : c.1 ≠ a' := fun e => h (e.symm.trans hac.symm)
        split <;> simp [Memory.read, Ne.symm h, hc]
      · simp only [Memory.read, ih]

/-! ### The canonical form -/

/-- Every entry of the list stands above `a`. -/
def Memory.above (a : Nat) (m : Memory) : Prop := ∀ c ∈ m, a < c.1

theorem Memory.wf_cons (c : Host.Cell) (m : Memory) :
    Memory.wf (c :: m) = true ↔
      c.1 < 2 ^ 64 ∧ c.2 ≠ Config.unlistedByte ∧ Memory.above c.1 m ∧ Memory.wf m = true := by
  induction m generalizing c with
  | nil => simp [Memory.wf, Memory.above]
  | cons d m ih =>
    rw [Memory.wf]
    simp only [Bool.and_eq_true, decide_eq_true_eq]
    constructor
    · rintro ⟨⟨hcd, hc⟩, hw⟩
      obtain ⟨hd, -, hab, -⟩ := (ih d).1 hw
      refine ⟨hcd.trans hd, hc, ?_, hw⟩
      rintro e (_ | ⟨_, he⟩)
      · exact hcd
      · exact hcd.trans (hab e he)
    · rintro ⟨-, hc, hab, hw⟩
      exact ⟨⟨hab d (by simp), hc⟩, hw⟩

theorem Memory.read_of_above {a : Nat} {m : Memory} (h : Memory.above a m) : m.read a = Config.unlistedByte := by
  induction m with
  | nil => rfl
  | cons c m ih =>
    have hc := h c (by simp)
    rw [Memory.read, if_neg (by omega)]
    exact ih fun d hd => h d (by simp [hd])

theorem Memory.read_write_same {m : Memory} (hw : m.wf = true) (a : Nat) (b : Byte) : (m.write a b).read a = b := by
  induction m with
  | nil =>
    unfold Memory.write
    split
    · next h => simp [h]
    · simp [Memory.read]
  | cons c m ih =>
    obtain ⟨-, -, hab, hm⟩ := (Memory.wf_cons c m).1 hw
    unfold Memory.write
    split
    · next h =>
      split
      · next hb =>
        rw [hb]
        apply Memory.read_of_above
        rintro d (_ | ⟨_, hd⟩)
        · exact h
        · exact h.trans (hab d hd)
      · simp [Memory.read]
    · split
      · next h =>
        split
        · next hb => rw [hb, h]; exact Memory.read_of_above hab
        · simp [Memory.read]
      · next h h' =>
        rw [Memory.read, if_neg (fun e => h' e.symm)]
        exact ih hm

/-- Every entry after a write is the written one or an old one. -/
theorem Memory.mem_write {m : Memory} {a : Nat} {b : Byte} {d : Host.Cell} (h : d ∈ m.write a b) : d = (a, b) ∨ d ∈ m := by
  induction m with
  | nil =>
    unfold Memory.write at h
    split at h <;> simp_all
  | cons c m ih =>
    unfold Memory.write at h
    split at h
    · split at h <;> simp_all
    · split at h
      · split at h <;> simp_all
        tauto
      · rcases List.mem_cons.1 h with h | h
        · exact .inr (by simp [h])
        · exact (ih h).imp id fun h => by simp [h]

theorem Memory.wf_write {m : Memory} (hw : m.wf = true) {a : Nat} (ha : a < 2 ^ 64) (b : Byte) :
    (m.write a b).wf = true := by
  induction m with
  | nil =>
    unfold Memory.write
    split
    · rfl
    · next h => exact (Memory.wf_cons _ _).2 ⟨ha, h, by simp [Memory.above], rfl⟩
  | cons c m ih =>
    obtain ⟨hc, hcb, hab, hm⟩ := (Memory.wf_cons c m).1 hw
    unfold Memory.write
    split
    · next h =>
      split
      · exact hw
      · next hb =>
        refine (Memory.wf_cons _ _).2 ⟨ha, hb, ?_, hw⟩
        rintro d (_ | ⟨_, hd⟩)
        · exact h
        · exact h.trans (hab d hd)
    · split
      · next h =>
        split
        · exact hm
        · next hb => exact (Memory.wf_cons _ _).2 ⟨ha, hb, by rw [h]; exact hab, hm⟩
      · next h h' =>
        refine (Memory.wf_cons _ _).2 ⟨hc, hcb, ?_, ih hm⟩
        intro d hd
        rcases Memory.mem_write hd with rfl | hd
        · show c.1 < a; omega
        · exact hab d hd

/-! ### Wider writes -/

theorem Memory.wf_storeLE {m : Memory} (hw : m.wf = true) (pa : Word) (n v : Nat) : (m.storeLE pa n v).wf = true := by
  induction n generalizing m pa v with
  | zero => exact hw
  | succ n ih => exact ih (Memory.wf_write hw pa.isLt _) _ _

theorem Memory.wf_touch {m : Memory} (hw : m.wf = true) (ts : List Touch) : (m.touch ts).wf = true := by
  induction ts generalizing m with
  | nil => exact hw
  | cons t ts ih => exact ih (Memory.wf_write hw t.addr.isLt _)

theorem reset_memory_wf : State.reset.mem.wf = true := rfl

/-- Byte k of the access at `pa` stands at the next address of byte k of the access at `pa + 1`. -/
theorem byte_succ (pa : Word) (k : Nat) : (pa.toNat + (k + 1)) % 2 ^ 64 = ((pa + 1).toNat + k) % 2 ^ 64 := by
  rw [BitVec.toNat_add]
  have : (1 : Word).toNat = 1 := rfl
  omega

theorem Memory.read_storeLE_other (m : Memory) (pa : Word) (n v : Nat) {a : Nat}
    (h : ∀ k, k < n → a ≠ (pa.toNat + k) % 2 ^ 64) : (m.storeLE pa n v).read a = m.read a := by
  induction n generalizing m pa v with
  | zero => rfl
  | succ n ih =>
    rw [Memory.storeLE, ih]
    · apply Memory.read_write_other
      have h0 := h 0 (by omega)
      rwa [Nat.add_zero, Nat.mod_eq_of_lt pa.isLt] at h0
    · intro k hk
      rw [← byte_succ]
      exact h (k + 1) (by omega)

theorem Memory.read_storeLE_byte {m : Memory} (hw : m.wf = true) (pa : Word) {n : Nat} (hn : n ≤ 2 ^ 64) (v k : Nat)
    (hk : k < n) : ((m.storeLE pa n v).read ((pa.toNat + k) % 2 ^ 64)).toNat = v / 256 ^ k % 256 := by
  induction n generalizing m pa v k with
  | zero => omega
  | succ n ih =>
    rw [Memory.storeLE]
    cases k with
    | zero =>
      rw [Nat.add_zero, Nat.mod_eq_of_lt pa.isLt, Memory.read_storeLE_other, Memory.read_write_same hw]
      · simp
      · intro j hj
        have := pa.isLt
        rw [← byte_succ]
        omega
    | succ k =>
      rw [byte_succ, ih (Memory.wf_write hw pa.isLt _) _ (by omega) _ _ (by omega), Nat.div_div_eq_div_mul, pow_succ']

/-- The value read is the sum of the bytes, the first one lowest. -/
theorem Memory.loadLE_lt (m : Memory) (pa : Word) (n : Nat) : m.loadLE pa n < 256 ^ n := by
  induction n generalizing pa with
  | zero => simp [Memory.loadLE]
  | succ n ih =>
    have h1 := ih (pa + 1)
    have h2 := (m.read pa.toNat).isLt
    rw [Memory.loadLE, pow_succ]
    omega

end Sys2Proof.Machine
end

