-- ==== Sys2Proof/Laws/PerInstr.lean ====
section
/-! SUPPORT. The per-instruction law: the word of an instruction matches the instruction's own row of opcode_table.json,
whatever its operands (30_encoding.md rule R78). -/
namespace Sys2Proof.Laws.EncodesInRow

/-- `encode i` matches the row of `i`. -/
def Statement (i : Instr) : Prop := encode i &&& i.row.mask = i.row.pattern

theorem mul (rd rs1 rs2 : XReg) : Statement (.mul rd rs1 rs2) :=
  (Laws.rType_mask_funct3 _ _ _ _ _ _).trans rfl

theorem mulh (rd rs1 rs2 : XReg) : Statement (.mulh rd rs1 rs2) :=
  (Laws.rType_mask_funct3 _ _ _ _ _ _).trans rfl

theorem mulhsu (rd rs1 rs2 : XReg) : Statement (.mulhsu rd rs1 rs2) :=
  (Laws.rType_mask_funct3 _ _ _ _ _ _).trans rfl

theorem mulhu (rd rs1 rs2 : XReg) : Statement (.mulhu rd rs1 rs2) :=
  (Laws.rType_mask_funct3 _ _ _ _ _ _).trans rfl

theorem div (rd rs1 rs2 : XReg) : Statement (.div rd rs1 rs2) :=
  (Laws.rType_mask_funct3 _ _ _ _ _ _).trans rfl

theorem divu (rd rs1 rs2 : XReg) : Statement (.divu rd rs1 rs2) :=
  (Laws.rType_mask_funct3 _ _ _ _ _ _).trans rfl

theorem rem (rd rs1 rs2 : XReg) : Statement (.rem rd rs1 rs2) :=
  (Laws.rType_mask_funct3 _ _ _ _ _ _).trans rfl

theorem remu (rd rs1 rs2 : XReg) : Statement (.remu rd rs1 rs2) :=
  (Laws.rType_mask_funct3 _ _ _ _ _ _).trans rfl

theorem mulw (rd rs1 rs2 : XReg) : Statement (.mulw rd rs1 rs2) :=
  (Laws.rType_mask_funct3 _ _ _ _ _ _).trans rfl

theorem divw (rd rs1 rs2 : XReg) : Statement (.divw rd rs1 rs2) :=
  (Laws.rType_mask_funct3 _ _ _ _ _ _).trans rfl

theorem divuw (rd rs1 rs2 : XReg) : Statement (.divuw rd rs1 rs2) :=
  (Laws.rType_mask_funct3 _ _ _ _ _ _).trans rfl

theorem remw (rd rs1 rs2 : XReg) : Statement (.remw rd rs1 rs2) :=
  (Laws.rType_mask_funct3 _ _ _ _ _ _).trans rfl

theorem remuw (rd rs1 rs2 : XReg) : Statement (.remuw rd rs1 rs2) :=
  (Laws.rType_mask_funct3 _ _ _ _ _ _).trans rfl

theorem flw (rd : FReg) (rs1 : XReg) (imm : BitVec 12) : Statement (.flw rd rs1 imm) :=
  (Laws.iType_mask _ _ _ _ _).trans rfl

theorem fld (rd : FReg) (rs1 : XReg) (imm : BitVec 12) : Statement (.fld rd rs1 imm) :=
  (Laws.iType_mask _ _ _ _ _).trans rfl

theorem fsw (rs2 : FReg) (rs1 : XReg) (imm : BitVec 12) : Statement (.fsw rs2 rs1 imm) :=
  (Laws.sType_mask _ _ _ _ _).trans rfl

theorem fsd (rs2 : FReg) (rs1 : XReg) (imm : BitVec 12) : Statement (.fsd rs2 rs1 imm) :=
  (Laws.sType_mask _ _ _ _ _).trans rfl

theorem fmaddS (rd rs1 rs2 rs3 : FReg) (rm : Rm) : Statement (.fmaddS rd rs1 rs2 rs3 rm) :=
  (Laws.r4Type_mask _ _ _ _ _ _ _).trans rfl

theorem fmsubS (rd rs1 rs2 rs3 : FReg) (rm : Rm) : Statement (.fmsubS rd rs1 rs2 rs3 rm) :=
  (Laws.r4Type_mask _ _ _ _ _ _ _).trans rfl

theorem fnmsubS (rd rs1 rs2 rs3 : FReg) (rm : Rm) : Statement (.fnmsubS rd rs1 rs2 rs3 rm) :=
  (Laws.r4Type_mask _ _ _ _ _ _ _).trans rfl

theorem fnmaddS (rd rs1 rs2 rs3 : FReg) (rm : Rm) : Statement (.fnmaddS rd rs1 rs2 rs3 rm) :=
  (Laws.r4Type_mask _ _ _ _ _ _ _).trans rfl

theorem fmaddD (rd rs1 rs2 rs3 : FReg) (rm : Rm) : Statement (.fmaddD rd rs1 rs2 rs3 rm) :=
  (Laws.r4Type_mask _ _ _ _ _ _ _).trans rfl

theorem fmsubD (rd rs1 rs2 rs3 : FReg) (rm : Rm) : Statement (.fmsubD rd rs1 rs2 rs3 rm) :=
  (Laws.r4Type_mask _ _ _ _ _ _ _).trans rfl

theorem fnmsubD (rd rs1 rs2 rs3 : FReg) (rm : Rm) : Statement (.fnmsubD rd rs1 rs2 rs3 rm) :=
  (Laws.r4Type_mask _ _ _ _ _ _ _).trans rfl

theorem fnmaddD (rd rs1 rs2 rs3 : FReg) (rm : Rm) : Statement (.fnmaddD rd rs1 rs2 rs3 rm) :=
  (Laws.r4Type_mask _ _ _ _ _ _ _).trans rfl

theorem faddS (rd rs1 rs2 : FReg) (rm : Rm) : Statement (.faddS rd rs1 rs2 rm) :=
  (Laws.rType_mask_rm _ _ _ _ _ _).trans rfl

theorem fsubS (rd rs1 rs2 : FReg) (rm : Rm) : Statement (.fsubS rd rs1 rs2 rm) :=
  (Laws.rType_mask_rm _ _ _ _ _ _).trans rfl

theorem fmulS (rd rs1 rs2 : FReg) (rm : Rm) : Statement (.fmulS rd rs1 rs2 rm) :=
  (Laws.rType_mask_rm _ _ _ _ _ _).trans rfl

theorem fdivS (rd rs1 rs2 : FReg) (rm : Rm) : Statement (.fdivS rd rs1 rs2 rm) :=
  (Laws.rType_mask_rm _ _ _ _ _ _).trans rfl

theorem fsqrtS (rd rs1 : FReg) (rm : Rm) : Statement (.fsqrtS rd rs1 rm) :=
  (Laws.rType_mask_rs2_rm _ _ _ _ _ _).trans rfl

theorem faddD (rd rs1 rs2 : FReg) (rm : Rm) : Statement (.faddD rd rs1 rs2 rm) :=
  (Laws.rType_mask_rm _ _ _ _ _ _).trans rfl

theorem fsubD (rd rs1 rs2 : FReg) (rm : Rm) : Statement (.fsubD rd rs1 rs2 rm) :=
  (Laws.rType_mask_rm _ _ _ _ _ _).trans rfl

theorem fmulD (rd rs1 rs2 : FReg) (rm : Rm) : Statement (.fmulD rd rs1 rs2 rm) :=
  (Laws.rType_mask_rm _ _ _ _ _ _).trans rfl

theorem fdivD (rd rs1 rs2 : FReg) (rm : Rm) : Statement (.fdivD rd rs1 rs2 rm) :=
  (Laws.rType_mask_rm _ _ _ _ _ _).trans rfl

theorem fsqrtD (rd rs1 : FReg) (rm : Rm) : Statement (.fsqrtD rd rs1 rm) :=
  (Laws.rType_mask_rs2_rm _ _ _ _ _ _).trans rfl

theorem fcvtWS (rd : XReg) (rs1 : FReg) (rm : Rm) : Statement (.fcvtWS rd rs1 rm) :=
  (Laws.rType_mask_rs2_rm _ _ _ _ _ _).trans rfl

theorem fcvtWUS (rd : XReg) (rs1 : FReg) (rm : Rm) : Statement (.fcvtWUS rd rs1 rm) :=
  (Laws.rType_mask_rs2_rm _ _ _ _ _ _).trans rfl

theorem fcvtLS (rd : XReg) (rs1 : FReg) (rm : Rm) : Statement (.fcvtLS rd rs1 rm) :=
  (Laws.rType_mask_rs2_rm _ _ _ _ _ _).trans rfl

theorem fcvtLUS (rd : XReg) (rs1 : FReg) (rm : Rm) : Statement (.fcvtLUS rd rs1 rm) :=
  (Laws.rType_mask_rs2_rm _ _ _ _ _ _).trans rfl

theorem fcvtSW (rd : FReg) (rs1 : XReg) (rm : Rm) : Statement (.fcvtSW rd rs1 rm) :=
  (Laws.rType_mask_rs2_rm _ _ _ _ _ _).trans rfl

theorem fcvtSWU (rd : FReg) (rs1 : XReg) (rm : Rm) : Statement (.fcvtSWU rd rs1 rm) :=
  (Laws.rType_mask_rs2_rm _ _ _ _ _ _).trans rfl

theorem fcvtSL (rd : FReg) (rs1 : XReg) (rm : Rm) : Statement (.fcvtSL rd rs1 rm) :=
  (Laws.rType_mask_rs2_rm _ _ _ _ _ _).trans rfl

theorem fcvtSLU (rd : FReg) (rs1 : XReg) (rm : Rm) : Statement (.fcvtSLU rd rs1 rm) :=
  (Laws.rType_mask_rs2_rm _ _ _ _ _ _).trans rfl

theorem fcvtWD (rd : XReg) (rs1 : FReg) (rm : Rm) : Statement (.fcvtWD rd rs1 rm) :=
  (Laws.rType_mask_rs2_rm _ _ _ _ _ _).trans rfl

theorem fcvtWUD (rd : XReg) (rs1 : FReg) (rm : Rm) : Statement (.fcvtWUD rd rs1 rm) :=
  (Laws.rType_mask_rs2_rm _ _ _ _ _ _).trans rfl

theorem fcvtLD (rd : XReg) (rs1 : FReg) (rm : Rm) : Statement (.fcvtLD rd rs1 rm) :=
  (Laws.rType_mask_rs2_rm _ _ _ _ _ _).trans rfl

theorem fcvtLUD (rd : XReg) (rs1 : FReg) (rm : Rm) : Statement (.fcvtLUD rd rs1 rm) :=
  (Laws.rType_mask_rs2_rm _ _ _ _ _ _).trans rfl

theorem fcvtDW (rd : FReg) (rs1 : XReg) (rm : Rm) : Statement (.fcvtDW rd rs1 rm) :=
  (Laws.rType_mask_rs2_rm _ _ _ _ _ _).trans rfl

theorem fcvtDWU (rd : FReg) (rs1 : XReg) (rm : Rm) : Statement (.fcvtDWU rd rs1 rm) :=
  (Laws.rType_mask_rs2_rm _ _ _ _ _ _).trans rfl

theorem fcvtDL (rd : FReg) (rs1 : XReg) (rm : Rm) : Statement (.fcvtDL rd rs1 rm) :=
  (Laws.rType_mask_rs2_rm _ _ _ _ _ _).trans rfl

theorem fcvtDLU (rd : FReg) (rs1 : XReg) (rm : Rm) : Statement (.fcvtDLU rd rs1 rm) :=
  (Laws.rType_mask_rs2_rm _ _ _ _ _ _).trans rfl

theorem fcvtSD (rd rs1 : FReg) (rm : Rm) : Statement (.fcvtSD rd rs1 rm) :=
  (Laws.rType_mask_rs2_rm _ _ _ _ _ _).trans rfl

theorem fcvtDS (rd rs1 : FReg) (rm : Rm) : Statement (.fcvtDS rd rs1 rm) :=
  (Laws.rType_mask_rs2_rm _ _ _ _ _ _).trans rfl

theorem fminS (rd rs1 rs2 : FReg) : Statement (.fminS rd rs1 rs2) :=
  (Laws.rType_mask_funct3 _ _ _ _ _ _).trans rfl

theorem fmaxS (rd rs1 rs2 : FReg) : Statement (.fmaxS rd rs1 rs2) :=
  (Laws.rType_mask_funct3 _ _ _ _ _ _).trans rfl

theorem fminD (rd rs1 rs2 : FReg) : Statement (.fminD rd rs1 rs2) :=
  (Laws.rType_mask_funct3 _ _ _ _ _ _).trans rfl

theorem fmaxD (rd rs1 rs2 : FReg) : Statement (.fmaxD rd rs1 rs2) :=
  (Laws.rType_mask_funct3 _ _ _ _ _ _).trans rfl

theorem feqS (rd : XReg) (rs1 rs2 : FReg) : Statement (.feqS rd rs1 rs2) :=
  (Laws.rType_mask_funct3 _ _ _ _ _ _).trans rfl

theorem fltS (rd : XReg) (rs1 rs2 : FReg) : Statement (.fltS rd rs1 rs2) :=
  (Laws.rType_mask_funct3 _ _ _ _ _ _).trans rfl

theorem fleS (rd : XReg) (rs1 rs2 : FReg) : Statement (.fleS rd rs1 rs2) :=
  (Laws.rType_mask_funct3 _ _ _ _ _ _).trans rfl

theorem feqD (rd : XReg) (rs1 rs2 : FReg) : Statement (.feqD rd rs1 rs2) :=
  (Laws.rType_mask_funct3 _ _ _ _ _ _).trans rfl

theorem fltD (rd : XReg) (rs1 rs2 : FReg) : Statement (.fltD rd rs1 rs2) :=
  (Laws.rType_mask_funct3 _ _ _ _ _ _).trans rfl

theorem fleD (rd : XReg) (rs1 rs2 : FReg) : Statement (.fleD rd rs1 rs2) :=
  (Laws.rType_mask_funct3 _ _ _ _ _ _).trans rfl

theorem fclassS (rd : XReg) (rs1 : FReg) : Statement (.fclassS rd rs1) :=
  (Laws.rType_mask_rs2_funct3 _ _ _ _ _ _).trans rfl

theorem fclassD (rd : XReg) (rs1 : FReg) : Statement (.fclassD rd rs1) :=
  (Laws.rType_mask_rs2_funct3 _ _ _ _ _ _).trans rfl

theorem fsgnjS (rd rs1 rs2 : FReg) : Statement (.fsgnjS rd rs1 rs2) :=
  (Laws.rType_mask_funct3 _ _ _ _ _ _).trans rfl

theorem fsgnjnS (rd rs1 rs2 : FReg) : Statement (.fsgnjnS rd rs1 rs2) :=
  (Laws.rType_mask_funct3 _ _ _ _ _ _).trans rfl

theorem fsgnjxS (rd rs1 rs2 : FReg) : Statement (.fsgnjxS rd rs1 rs2) :=
  (Laws.rType_mask_funct3 _ _ _ _ _ _).trans rfl

theorem fsgnjD (rd rs1 rs2 : FReg) : Statement (.fsgnjD rd rs1 rs2) :=
  (Laws.rType_mask_funct3 _ _ _ _ _ _).trans rfl

theorem fsgnjnD (rd rs1 rs2 : FReg) : Statement (.fsgnjnD rd rs1 rs2) :=
  (Laws.rType_mask_funct3 _ _ _ _ _ _).trans rfl

theorem fsgnjxD (rd rs1 rs2 : FReg) : Statement (.fsgnjxD rd rs1 rs2) :=
  (Laws.rType_mask_funct3 _ _ _ _ _ _).trans rfl

theorem fmvXW (rd : XReg) (rs1 : FReg) : Statement (.fmvXW rd rs1) :=
  (Laws.rType_mask_rs2_funct3 _ _ _ _ _ _).trans rfl

theorem fmvWX (rd : FReg) (rs1 : XReg) : Statement (.fmvWX rd rs1) :=
  (Laws.rType_mask_rs2_funct3 _ _ _ _ _ _).trans rfl

theorem fmvXD (rd : XReg) (rs1 : FReg) : Statement (.fmvXD rd rs1) :=
  (Laws.rType_mask_rs2_funct3 _ _ _ _ _ _).trans rfl

theorem fmvDX (rd : FReg) (rs1 : XReg) : Statement (.fmvDX rd rs1) :=
  (Laws.rType_mask_rs2_funct3 _ _ _ _ _ _).trans rfl

end Sys2Proof.Laws.EncodesInRow
end

