-- ==== Sys2Proof/Laws/State.lean ====
section
/-! SUPPORT. What each update of the state does to each field, and what a register read gives after a write. -/
namespace Sys2Proof.Machine

/-! ### Registers -/

@[simp] theorem State.writeX_rv (s : State) (r : XReg) (v : Word) : (s.writeX r v).rv = s.rv := by unfold State.writeX; split <;> rfl
@[simp] theorem State.writeX_f (s : State) (r : XReg) (v : Word) : (s.writeX r v).f = s.f := by unfold State.writeX; split <;> rfl
@[simp] theorem State.writeX_pc (s : State) (r : XReg) (v : Word) : (s.writeX r v).pc = s.pc := by unfold State.writeX; split <;> rfl
@[simp] theorem State.writeX_misa (s : State) (r : XReg) (v : Word) : (s.writeX r v).misa = s.misa := by unfold State.writeX; split <;> rfl
@[simp] theorem State.writeX_frm (s : State) (r : XReg) (v : Word) : (s.writeX r v).frm = s.frm := by unfold State.writeX; split <;> rfl
@[simp] theorem State.writeX_fflags (s : State) (r : XReg) (v : Word) : (s.writeX r v).fflags = s.fflags := by unfold State.writeX; split <;> rfl
@[simp] theorem State.writeX_mcause (s : State) (r : XReg) (v : Word) : (s.writeX r v).mcause = s.mcause := by unfold State.writeX; split <;> rfl
@[simp] theorem State.writeX_mtval (s : State) (r : XReg) (v : Word) : (s.writeX r v).mtval = s.mtval := by unfold State.writeX; split <;> rfl
@[simp] theorem State.writeX_mem (s : State) (r : XReg) (v : Word) : (s.writeX r v).mem = s.mem := by unfold State.writeX; split <;> rfl
@[simp] theorem State.writeX_host (s : State) (r : XReg) (v : Word) : (s.writeX r v).host = s.host := by unfold State.writeX; split <;> rfl
@[simp] theorem State.writeX_offers (s : State) (r : XReg) (v : Word) : (s.writeX r v).offers = s.offers := by unfold State.writeX; split <;> rfl
@[simp] theorem State.writeX_isC (s : State) (r : XReg) (v : Word) : (s.writeX r v).isC = s.isC := by unfold State.writeX; split <;> rfl
@[simp] theorem State.writeX_legal (s : State) (r : XReg) (v : Word) : (s.writeX r v).legal = s.legal := by unfold State.writeX; split <;> rfl

@[simp] theorem State.writeF_rv (s : State) (r : FReg) (v : Word) : (s.writeF r v).rv = s.rv := rfl
@[simp] theorem State.writeF_x (s : State) (r : FReg) (v : Word) : (s.writeF r v).x = s.x := rfl
@[simp] theorem State.writeF_pc (s : State) (r : FReg) (v : Word) : (s.writeF r v).pc = s.pc := rfl
@[simp] theorem State.writeF_misa (s : State) (r : FReg) (v : Word) : (s.writeF r v).misa = s.misa := rfl
@[simp] theorem State.writeF_frm (s : State) (r : FReg) (v : Word) : (s.writeF r v).frm = s.frm := rfl
@[simp] theorem State.writeF_fflags (s : State) (r : FReg) (v : Word) : (s.writeF r v).fflags = s.fflags := rfl
@[simp] theorem State.writeF_mcause (s : State) (r : FReg) (v : Word) : (s.writeF r v).mcause = s.mcause := rfl
@[simp] theorem State.writeF_mtval (s : State) (r : FReg) (v : Word) : (s.writeF r v).mtval = s.mtval := rfl
@[simp] theorem State.writeF_mem (s : State) (r : FReg) (v : Word) : (s.writeF r v).mem = s.mem := rfl
@[simp] theorem State.writeF_host (s : State) (r : FReg) (v : Word) : (s.writeF r v).host = s.host := rfl
@[simp] theorem State.writeF_offers (s : State) (r : FReg) (v : Word) : (s.writeF r v).offers = s.offers := rfl
@[simp] theorem State.writeF_isC (s : State) (r : FReg) (v : Word) : (s.writeF r v).isC = s.isC := rfl
@[simp] theorem State.writeF_legal (s : State) (r : FReg) (v : Word) : (s.writeF r v).legal = s.legal := rfl
@[simp] theorem State.writeF_f (s : State) (r : FReg) (v : Word) : (s.writeF r v).f = s.f.set r v := rfl

@[simp] theorem State.writeFp_rv (s : State) (F : Fmt) (r : FReg) (v : BitVec F.width) : (s.writeFp F r v).rv = s.rv := by cases F <;> rfl
@[simp] theorem State.writeFp_x (s : State) (F : Fmt) (r : FReg) (v : BitVec F.width) : (s.writeFp F r v).x = s.x := by cases F <;> rfl
@[simp] theorem State.writeFp_pc (s : State) (F : Fmt) (r : FReg) (v : BitVec F.width) : (s.writeFp F r v).pc = s.pc := by cases F <;> rfl
@[simp] theorem State.writeFp_misa (s : State) (F : Fmt) (r : FReg) (v : BitVec F.width) : (s.writeFp F r v).misa = s.misa := by cases F <;> rfl
@[simp] theorem State.writeFp_frm (s : State) (F : Fmt) (r : FReg) (v : BitVec F.width) : (s.writeFp F r v).frm = s.frm := by cases F <;> rfl
@[simp] theorem State.writeFp_fflags (s : State) (F : Fmt) (r : FReg) (v : BitVec F.width) : (s.writeFp F r v).fflags = s.fflags := by cases F <;> rfl
@[simp] theorem State.writeFp_mcause (s : State) (F : Fmt) (r : FReg) (v : BitVec F.width) : (s.writeFp F r v).mcause = s.mcause := by cases F <;> rfl
@[simp] theorem State.writeFp_mtval (s : State) (F : Fmt) (r : FReg) (v : BitVec F.width) : (s.writeFp F r v).mtval = s.mtval := by cases F <;> rfl
@[simp] theorem State.writeFp_mem (s : State) (F : Fmt) (r : FReg) (v : BitVec F.width) : (s.writeFp F r v).mem = s.mem := by cases F <;> rfl
@[simp] theorem State.writeFp_host (s : State) (F : Fmt) (r : FReg) (v : BitVec F.width) : (s.writeFp F r v).host = s.host := by cases F <;> rfl
@[simp] theorem State.writeFp_offers (s : State) (F : Fmt) (r : FReg) (v : BitVec F.width) : (s.writeFp F r v).offers = s.offers := by cases F <;> rfl
@[simp] theorem State.writeFp_isC (s : State) (F : Fmt) (r : FReg) (v : BitVec F.width) : (s.writeFp F r v).isC = s.isC := by cases F <;> rfl
@[simp] theorem State.writeFp_legal (s : State) (F : Fmt) (r : FReg) (v : BitVec F.width) : (s.writeFp F r v).legal = s.legal := by cases F <;> rfl

/-! ### Program counter -/

@[simp] theorem State.writePc_rv (s : State) (v : Word) : (s.writePc v).rv = s.rv := rfl
@[simp] theorem State.writePc_x (s : State) (v : Word) : (s.writePc v).x = s.x := rfl
@[simp] theorem State.writePc_f (s : State) (v : Word) : (s.writePc v).f = s.f := rfl
@[simp] theorem State.writePc_misa (s : State) (v : Word) : (s.writePc v).misa = s.misa := rfl
@[simp] theorem State.writePc_frm (s : State) (v : Word) : (s.writePc v).frm = s.frm := rfl
@[simp] theorem State.writePc_fflags (s : State) (v : Word) : (s.writePc v).fflags = s.fflags := rfl
@[simp] theorem State.writePc_mcause (s : State) (v : Word) : (s.writePc v).mcause = s.mcause := rfl
@[simp] theorem State.writePc_mtval (s : State) (v : Word) : (s.writePc v).mtval = s.mtval := rfl
@[simp] theorem State.writePc_mem (s : State) (v : Word) : (s.writePc v).mem = s.mem := rfl
@[simp] theorem State.writePc_host (s : State) (v : Word) : (s.writePc v).host = s.host := rfl
@[simp] theorem State.writePc_offers (s : State) (v : Word) : (s.writePc v).offers = s.offers := rfl
@[simp] theorem State.writePc_isC (s : State) (v : Word) : (s.writePc v).isC = s.isC := rfl
@[simp] theorem State.writePc_legal (s : State) (v : Word) : (s.writePc v).legal = s.legal := rfl
@[simp] theorem State.writePc_pc (s : State) (v : Word) : (s.writePc v).pc = wrapX s.rv v := rfl

@[simp] theorem State.retire_rv (s : State) : (s.retire).rv = s.rv := rfl
@[simp] theorem State.retire_x (s : State) : (s.retire).x = s.x := rfl
@[simp] theorem State.retire_f (s : State) : (s.retire).f = s.f := rfl
@[simp] theorem State.retire_misa (s : State) : (s.retire).misa = s.misa := rfl
@[simp] theorem State.retire_frm (s : State) : (s.retire).frm = s.frm := rfl
@[simp] theorem State.retire_fflags (s : State) : (s.retire).fflags = s.fflags := rfl
@[simp] theorem State.retire_mcause (s : State) : (s.retire).mcause = s.mcause := rfl
@[simp] theorem State.retire_mtval (s : State) : (s.retire).mtval = s.mtval := rfl
@[simp] theorem State.retire_mem (s : State) : (s.retire).mem = s.mem := rfl
@[simp] theorem State.retire_host (s : State) : (s.retire).host = s.host := rfl
@[simp] theorem State.retire_offers (s : State) : (s.retire).offers = s.offers := rfl
@[simp] theorem State.retire_isC (s : State) : (s.retire).isC = s.isC := rfl
@[simp] theorem State.retire_pc (s : State) : s.retire.pc = wrapX s.rv s.npc := rfl
@[simp] theorem State.retire_legal (s : State) : s.retire.legal = true := rfl

/-! ### Control and status registers -/

@[simp] theorem State.writeCsr_rv (s : State) (c : Csr) (v : Word) : (s.writeCsr c v).rv = s.rv := by cases c <;> rfl
@[simp] theorem State.writeCsr_x (s : State) (c : Csr) (v : Word) : (s.writeCsr c v).x = s.x := by cases c <;> rfl
@[simp] theorem State.writeCsr_f (s : State) (c : Csr) (v : Word) : (s.writeCsr c v).f = s.f := by cases c <;> rfl
@[simp] theorem State.writeCsr_pc (s : State) (c : Csr) (v : Word) : (s.writeCsr c v).pc = s.pc := by cases c <;> rfl
@[simp] theorem State.writeCsr_mem (s : State) (c : Csr) (v : Word) : (s.writeCsr c v).mem = s.mem := by cases c <;> rfl
@[simp] theorem State.writeCsr_host (s : State) (c : Csr) (v : Word) : (s.writeCsr c v).host = s.host := by cases c <;> rfl
@[simp] theorem State.writeCsr_offers (s : State) (c : Csr) (v : Word) : (s.writeCsr c v).offers = s.offers := by cases c <;> rfl
@[simp] theorem State.writeCsr_isC (s : State) (c : Csr) (v : Word) : (s.writeCsr c v).isC = s.isC := by cases c <;> rfl
@[simp] theorem State.writeCsr_legal (s : State) (c : Csr) (v : Word) : (s.writeCsr c v).legal = s.legal := by cases c <;> rfl
@[simp] theorem State.readCsr_misa (s : State) : s.readCsr .misa = s.misa := rfl
@[simp] theorem State.writeCsr_misa_misa (s : State) (v : Word) : (s.writeCsr .misa v).misa = v := rfl
@[simp] theorem State.writeCsr_misa_frm (s : State) (v : Word) : (s.writeCsr .misa v).frm = s.frm := rfl
@[simp] theorem State.writeCsr_misa_fflags (s : State) (v : Word) : (s.writeCsr .misa v).fflags = s.fflags := rfl
@[simp] theorem State.writeCsr_misa_mcause (s : State) (v : Word) : (s.writeCsr .misa v).mcause = s.mcause := rfl
@[simp] theorem State.writeCsr_misa_mtval (s : State) (v : Word) : (s.writeCsr .misa v).mtval = s.mtval := rfl
@[simp] theorem State.readCsr_frm (s : State) : s.readCsr .frm = s.frm.setWidth 64 := rfl
@[simp] theorem State.writeCsr_frm_misa (s : State) (v : Word) : (s.writeCsr .frm v).misa = s.misa := rfl
@[simp] theorem State.writeCsr_frm_frm (s : State) (v : Word) : (s.writeCsr .frm v).frm = v.setWidth 3 := rfl
@[simp] theorem State.writeCsr_frm_fflags (s : State) (v : Word) : (s.writeCsr .frm v).fflags = s.fflags := rfl
@[simp] theorem State.writeCsr_frm_mcause (s : State) (v : Word) : (s.writeCsr .frm v).mcause = s.mcause := rfl
@[simp] theorem State.writeCsr_frm_mtval (s : State) (v : Word) : (s.writeCsr .frm v).mtval = s.mtval := rfl
@[simp] theorem State.readCsr_fflags (s : State) : s.readCsr .fflags = s.fflags.setWidth 64 := rfl
@[simp] theorem State.writeCsr_fflags_misa (s : State) (v : Word) : (s.writeCsr .fflags v).misa = s.misa := rfl
@[simp] theorem State.writeCsr_fflags_frm (s : State) (v : Word) : (s.writeCsr .fflags v).frm = s.frm := rfl
@[simp] theorem State.writeCsr_fflags_fflags (s : State) (v : Word) : (s.writeCsr .fflags v).fflags = v.setWidth 5 := rfl
@[simp] theorem State.writeCsr_fflags_mcause (s : State) (v : Word) : (s.writeCsr .fflags v).mcause = s.mcause := rfl
@[simp] theorem State.writeCsr_fflags_mtval (s : State) (v : Word) : (s.writeCsr .fflags v).mtval = s.mtval := rfl
@[simp] theorem State.readCsr_mcause (s : State) : s.readCsr .mcause = s.mcause := rfl
@[simp] theorem State.writeCsr_mcause_misa (s : State) (v : Word) : (s.writeCsr .mcause v).misa = s.misa := rfl
@[simp] theorem State.writeCsr_mcause_frm (s : State) (v : Word) : (s.writeCsr .mcause v).frm = s.frm := rfl
@[simp] theorem State.writeCsr_mcause_fflags (s : State) (v : Word) : (s.writeCsr .mcause v).fflags = s.fflags := rfl
@[simp] theorem State.writeCsr_mcause_mcause (s : State) (v : Word) : (s.writeCsr .mcause v).mcause = v := rfl
@[simp] theorem State.writeCsr_mcause_mtval (s : State) (v : Word) : (s.writeCsr .mcause v).mtval = s.mtval := rfl
@[simp] theorem State.readCsr_mtval (s : State) : s.readCsr .mtval = s.mtval := rfl
@[simp] theorem State.writeCsr_mtval_misa (s : State) (v : Word) : (s.writeCsr .mtval v).misa = s.misa := rfl
@[simp] theorem State.writeCsr_mtval_frm (s : State) (v : Word) : (s.writeCsr .mtval v).frm = s.frm := rfl
@[simp] theorem State.writeCsr_mtval_fflags (s : State) (v : Word) : (s.writeCsr .mtval v).fflags = s.fflags := rfl
@[simp] theorem State.writeCsr_mtval_mcause (s : State) (v : Word) : (s.writeCsr .mtval v).mcause = s.mcause := rfl
@[simp] theorem State.writeCsr_mtval_mtval (s : State) (v : Word) : (s.writeCsr .mtval v).mtval = v := rfl

/-! ### Flags -/

@[simp] theorem State.accrue_rv (s : State) (fl : FpFlags) : (s.accrue fl).rv = s.rv := rfl
@[simp] theorem State.accrue_x (s : State) (fl : FpFlags) : (s.accrue fl).x = s.x := rfl
@[simp] theorem State.accrue_f (s : State) (fl : FpFlags) : (s.accrue fl).f = s.f := rfl
@[simp] theorem State.accrue_pc (s : State) (fl : FpFlags) : (s.accrue fl).pc = s.pc := rfl
@[simp] theorem State.accrue_misa (s : State) (fl : FpFlags) : (s.accrue fl).misa = s.misa := rfl
@[simp] theorem State.accrue_frm (s : State) (fl : FpFlags) : (s.accrue fl).frm = s.frm := rfl
@[simp] theorem State.accrue_mcause (s : State) (fl : FpFlags) : (s.accrue fl).mcause = s.mcause := rfl
@[simp] theorem State.accrue_mtval (s : State) (fl : FpFlags) : (s.accrue fl).mtval = s.mtval := rfl
@[simp] theorem State.accrue_mem (s : State) (fl : FpFlags) : (s.accrue fl).mem = s.mem := rfl
@[simp] theorem State.accrue_host (s : State) (fl : FpFlags) : (s.accrue fl).host = s.host := rfl
@[simp] theorem State.accrue_offers (s : State) (fl : FpFlags) : (s.accrue fl).offers = s.offers := rfl
@[simp] theorem State.accrue_isC (s : State) (fl : FpFlags) : (s.accrue fl).isC = s.isC := rfl
@[simp] theorem State.accrue_legal (s : State) (fl : FpFlags) : (s.accrue fl).legal = s.legal := rfl
@[simp] theorem State.accrue_fflags (s : State) (fl : FpFlags) : (s.accrue fl).fflags = s.fflags ||| fl := by
  show (s.fflags.setWidth 64 ||| fl.setWidth 64).setWidth 5 = _
  simp


/-! ### The caller's words -/

@[simp] theorem State.begin_rv (s : State) (o : Offer) (rest : List Offer) : (s.begin o rest).rv = s.rv := rfl
@[simp] theorem State.begin_x (s : State) (o : Offer) (rest : List Offer) : (s.begin o rest).x = s.x := rfl
@[simp] theorem State.begin_f (s : State) (o : Offer) (rest : List Offer) : (s.begin o rest).f = s.f := rfl
@[simp] theorem State.begin_pc (s : State) (o : Offer) (rest : List Offer) : (s.begin o rest).pc = s.pc := rfl
@[simp] theorem State.begin_misa (s : State) (o : Offer) (rest : List Offer) : (s.begin o rest).misa = s.misa := rfl
@[simp] theorem State.begin_frm (s : State) (o : Offer) (rest : List Offer) : (s.begin o rest).frm = s.frm := rfl
@[simp] theorem State.begin_fflags (s : State) (o : Offer) (rest : List Offer) : (s.begin o rest).fflags = s.fflags := rfl
@[simp] theorem State.begin_mcause (s : State) (o : Offer) (rest : List Offer) : (s.begin o rest).mcause = s.mcause := rfl
@[simp] theorem State.begin_mtval (s : State) (o : Offer) (rest : List Offer) : (s.begin o rest).mtval = s.mtval := rfl
@[simp] theorem State.begin_mem (s : State) (o : Offer) (rest : List Offer) : (s.begin o rest).mem = s.mem := rfl
@[simp] theorem State.begin_host (s : State) (o : Offer) (rest : List Offer) : (s.begin o rest).host = s.host := rfl
@[simp] theorem State.begin_legal (s : State) (o : Offer) (rest : List Offer) : (s.begin o rest).legal = s.legal := rfl
@[simp] theorem State.begin_offers (s : State) (o : Offer) (rest : List Offer) : (s.begin o rest).offers = rest := rfl
@[simp] theorem State.begin_isC (s : State) (o : Offer) (rest : List Offer) : (s.begin o rest).isC = o.isC := rfl

@[simp] theorem State.withFetchWord_rv (s : State) (n w : Nat) : (s.withFetchWord n w).rv = s.rv := rfl
@[simp] theorem State.withFetchWord_x (s : State) (n w : Nat) : (s.withFetchWord n w).x = s.x := rfl
@[simp] theorem State.withFetchWord_f (s : State) (n w : Nat) : (s.withFetchWord n w).f = s.f := rfl
@[simp] theorem State.withFetchWord_pc (s : State) (n w : Nat) : (s.withFetchWord n w).pc = s.pc := rfl
@[simp] theorem State.withFetchWord_misa (s : State) (n w : Nat) : (s.withFetchWord n w).misa = s.misa := rfl
@[simp] theorem State.withFetchWord_frm (s : State) (n w : Nat) : (s.withFetchWord n w).frm = s.frm := rfl
@[simp] theorem State.withFetchWord_fflags (s : State) (n w : Nat) : (s.withFetchWord n w).fflags = s.fflags := rfl
@[simp] theorem State.withFetchWord_mcause (s : State) (n w : Nat) : (s.withFetchWord n w).mcause = s.mcause := rfl
@[simp] theorem State.withFetchWord_mtval (s : State) (n w : Nat) : (s.withFetchWord n w).mtval = s.mtval := rfl
@[simp] theorem State.withFetchWord_mem (s : State) (n w : Nat) : (s.withFetchWord n w).mem = s.mem := rfl
@[simp] theorem State.withFetchWord_host (s : State) (n w : Nat) : (s.withFetchWord n w).host = s.host := rfl
@[simp] theorem State.withFetchWord_isC (s : State) (n w : Nat) : (s.withFetchWord n w).isC = s.isC := rfl
@[simp] theorem State.withFetchWord_legal (s : State) (n w : Nat) : (s.withFetchWord n w).legal = s.legal := rfl
@[simp] theorem State.withFetchWord_offers (s : State) (n w : Nat) :
    (s.withFetchWord n w).offers = ⟨BitVec.ofNat 32 (w % 2 ^ n), false⟩ :: s.offers := rfl

/-! ### Widths -/

theorem wrapX_toNat (rv : Rv) (v : Word) : (wrapX rv v).toNat = v.toNat % 2 ^ rv.xlen := by
  cases rv
  · show ((v.setWidth 32).setWidth 64).toNat = v.toNat % 2 ^ 32
    simp only [BitVec.toNat_setWidth]; omega
  · exact (Nat.mod_eq_of_lt v.isLt).symm

theorem wrapX_lt (rv : Rv) (v : Word) : (wrapX rv v).toNat < 2 ^ rv.xlen := by
  rw [wrapX_toNat]; exact Nat.mod_lt _ (by cases rv <;> decide)

@[simp] theorem wrapX_wrapX (rv : Rv) (v : Word) : wrapX rv (wrapX rv v) = wrapX rv v := by
  apply BitVec.eq_of_toNat_eq; simp [wrapX_toNat]

theorem wrapX_of_lt {rv : Rv} {v : Word} (h : v.toNat < 2 ^ rv.xlen) : wrapX rv v = v := by
  apply BitVec.eq_of_toNat_eq; rw [wrapX_toNat, Nat.mod_eq_of_lt h]

@[simp] theorem wrapX_rv64 (v : Word) : wrapX .rv64 v = v := rfl

@[simp] theorem wrapX_zero (rv : Rv) : wrapX rv 0 = 0 := by cases rv <;> rfl

/-! ### General registers -/

theorem State.readX_congr {s t : State} (hx : t.x = s.x) (hrv : t.rv = s.rv) (r : XReg) : t.readX r = s.readX r := by
  unfold State.readX; rw [hx, hrv]

@[simp] theorem State.readX_zero (s : State) : s.readX 0 = 0 := rfl

theorem State.readX_lt (s : State) (r : XReg) : (s.readX r).toNat < 2 ^ s.rv.xlen := by
  unfold State.readX
  split
  · cases s.rv <;> decide
  · exact wrapX_lt _ _

@[simp] theorem State.wrapX_readX (s : State) (r : XReg) : wrapX s.rv (s.readX r) = s.readX r :=
  wrapX_of_lt (s.readX_lt r)

@[simp] theorem State.writeX_zero (s : State) (v : Word) : s.writeX 0 v = s := rfl

theorem State.readX_writeX_same (s : State) {r : XReg} (h : r ≠ 0) (v : Word) : (s.writeX r v).readX r = wrapX s.rv v := by
  simp [State.readX, State.writeX, h]

theorem State.readX_writeX_other (s : State) {r q : XReg} (h : q ≠ r) (v : Word) : (s.writeX r v).readX q = s.readX q := by
  have hv : r.val ≠ q.val := fun e => h (Fin.ext e.symm)
  unfold State.readX State.writeX
  split
  · rfl
  · split
    · rfl
    · simp [hv]

@[simp] theorem State.readX_writeF (s : State) (r : FReg) (v : Word) (q : XReg) : (s.writeF r v).readX q = s.readX q := rfl
@[simp] theorem State.readX_writeFp (s : State) (F : Fmt) (r : FReg) (v : BitVec F.width) (q : XReg) :
    (s.writeFp F r v).readX q = s.readX q := by cases F <;> rfl
@[simp] theorem State.readX_accrue (s : State) (fl : FpFlags) (q : XReg) : (s.accrue fl).readX q = s.readX q := rfl
@[simp] theorem State.readX_retire (s : State) (q : XReg) : s.retire.readX q = s.readX q := rfl
@[simp] theorem State.readX_begin (s : State) (o : Offer) (rest : List Offer) (q : XReg) :
    (s.begin o rest).readX q = s.readX q := rfl

/-! ### Floating-point registers -/

@[simp] theorem State.readF_writeF_same (s : State) (r : FReg) (v : Word) : (s.writeF r v).readF r = v := by
  simp [State.readF, State.writeF]

theorem State.readF_writeF_other (s : State) {r q : FReg} (h : q ≠ r) (v : Word) : (s.writeF r v).readF q = s.readF q := by
  have hv : r.val ≠ q.val := fun e => h (Fin.ext e.symm)
  simp [State.readF, State.writeF, hv]

@[simp] theorem State.readF_writeX (s : State) (r : XReg) (v : Word) (q : FReg) : (s.writeX r v).readF q = s.readF q := by
  simp [State.readF]
@[simp] theorem State.readF_accrue (s : State) (fl : FpFlags) (q : FReg) : (s.accrue fl).readF q = s.readF q := rfl
@[simp] theorem State.readF_retire (s : State) (q : FReg) : s.retire.readF q = s.readF q := rfl
@[simp] theorem State.readF_begin (s : State) (o : Offer) (rest : List Offer) (q : FReg) :
    (s.begin o rest).readF q = s.readF q := rfl

theorem State.readF_writeFp_other (s : State) {F : Fmt} {r q : FReg} (h : q ≠ r) (v : BitVec F.width) :
    (s.writeFp F r v).readF q = s.readF q := by
  cases F <;> exact s.readF_writeF_other h _

/-! ### Program counter -/

@[simp] theorem State.readPc_retire (s : State) : s.retire.readPc = s.npc := by
  simp [State.readPc, State.npc]

theorem State.npc_toNat (s : State) : s.npc.toNat = (s.readPc.toNat + if s.isC then 2 else 4) % 2 ^ s.rv.xlen := by
  have h : (2 : Nat) ^ s.rv.xlen ∣ 2 ^ 64 := by cases s.rv <;> decide
  unfold State.npc
  rw [wrapX_toNat, BitVec.toNat_add, Nat.mod_mod_of_dvd _ h]
  split <;> rfl

end Sys2Proof.Machine
end

