-- ==== Sys2Proof/Laws/Steps.lean ====
section
/-! SUPPORT. What the shared operations answer, and `exec_effect`: everything a meaning that answers a next state can
have done. Later proofs cite it and do not unfold a meaning. -/
namespace Sys2Proof.Machine

/-! ### Traps and illegal words -/

theorem illegal_eq (s : State) : illegal s = .next { s with legal := false } := rfl

theorem finishTrap_eq (s : State) (code tval : Word) :
    finishTrap s code tval = .next { s with mcause := code, mtval := tval, legal := true } := rfl

/-! ### Legality guards -/

theorem hasFormat_S (s : State) : s.hasFormat .S = s.misa.getLsbD 5 := rfl
theorem hasFormat_D (s : State) : s.hasFormat .D = (s.misa.getLsbD 5 && s.misa.getLsbD 3) := rfl

theorem requireFormat_true {s : State} {F : Fmt} (h : s.hasFormat F = true) (k : Result) : requireFormat s F k = k :=
  if_pos h

theorem requireFormat_false {s : State} {F : Fmt} (h : s.hasFormat F = false) (k : Result) :
    requireFormat s F k = illegal s := by
  simp [requireFormat, h]

theorem requireRv64_true {s : State} (h : s.rv = .rv64) (k : Result) : requireRv64 s k = k := if_pos h

theorem requireRv64_false {s : State} (h : s.rv ≠ .rv64) (k : Result) : requireRv64 s k = illegal s := if_neg h

theorem requireMode_eq (s : State) (rm : Rm) (k : Mode → Result) :
    requireMode s rm k = match roundingModeCheck rm s.frm with
      | some mode => k mode
      | none => illegal s := by
  have h : (s.readCsr .frm).setWidth 3 = s.frm := by simp
  cases hm : roundingModeCheck rm s.frm <;> simp only [requireMode, h, hm]

theorem requireMode_some {s : State} {rm : Rm} {mode : Mode} (h : roundingModeCheck rm s.frm = some mode)
    (k : Mode → Result) : requireMode s rm k = k mode := by
  rw [requireMode_eq, h]

theorem requireMode_none {s : State} {rm : Rm} (h : roundingModeCheck rm s.frm = none) (k : Mode → Result) :
    requireMode s rm k = illegal s := by
  rw [requireMode_eq, h]

theorem requireFp_legal {s : State} {F : Fmt} {rm : Rm} {mode : Mode} (hF : s.hasFormat F = true)
    (hm : roundingModeCheck rm s.frm = some mode) (k : Mode → Result) : requireFp s F rm k = k mode := by
  rw [requireFp, requireFormat_true hF, requireMode_some hm]

/-! ### Host calls -/

/-- A translation changes memory by the walk's writes at most. -/
theorem translate_ok {s s1 : State} {kind : Access} {ea pa : Word} (h : translate s kind ea = .ok pa s1) :
    ∃ ts, s1 = { s with mem := s.mem.touch ts } := by
  unfold translate at h
  split at h
  · unfold vmTranslate at h
    split at h
    · cases h
    · split at h
      · cases h; exact ⟨_, rfl⟩
      · cases h
      · cases h
  · cases h; exact ⟨[], rfl⟩

theorem translate_error {s s1 : State} {kind : Access} {ea code : Word} (h : translate s kind ea = .error code s1) :
    ∃ ts, s1 = { s with mem := s.mem.touch ts } := by
  unfold translate at h
  split at h
  · unfold vmTranslate at h
    split at h
    · cases h; exact ⟨[], rfl⟩
    · split at h
      · cases h
      · cases h; exact ⟨_, rfl⟩
      · cases h
  · cases h

theorem memRead_ok {s s1 : State} {d : Word} {w : MemWidth} {pa v : Word} (h : memRead s d w pa = .ok v s1) :
    s1 = s ∧ v = BitVec.ofNat 64 (s.mem.loadLE pa w.bytes) := by
  unfold memRead at h
  split at h <;> cases h
  exact ⟨rfl, rfl⟩

theorem memRead_error {s s1 : State} {d : Word} {w : MemWidth} {pa code : Word}
    (h : memRead s d w pa = .error code s1) : s1 = s := by
  unfold memRead at h
  split at h <;> cases h <;> rfl

theorem memWrite_ok {s s1 : State} {w : MemWidth} {pa v r : Word} (h : memWrite s w pa v = .ok r s1) :
    s1 = { s with mem := s.mem.storeLE pa w.bytes v.toNat } := by
  unfold memWrite at h
  split at h <;> cases h
  rfl

theorem memWrite_error {s s1 : State} {w : MemWidth} {pa v code : Word} (h : memWrite s w pa v = .error code s1) :
    s1 = s := by
  unfold memWrite at h
  split at h <;> cases h <;> rfl

theorem andThen_next {a : HostAnswer} {ea : Word} {k : Word → State → Result} {t : State}
    (h : a.andThen ea k = .next t) :
    (∃ v s1, a = .ok v s1 ∧ k v s1 = .next t) ∨ (∃ code s1, a = .error code s1 ∧ finishTrap s1 code ea = .next t) := by
  cases a with
  | ok v s1 => exact .inl ⟨v, s1, rfl, h⟩
  | error code s1 => exact .inr ⟨code, s1, rfl, h⟩
  | noReturn => cases h

/-! ### The host's reply to an access -/

theorem touchesRegion_iff (r : Region) (pa : Word) (n : Nat) : touchesRegion r pa n = true ↔ Touches r pa n := by
  simp [touchesRegion, covers, Touches]

/-- Where the host's misalignment policy lets the access pass, its regions answer. -/
theorem memReply_regions {s : State} {w : MemWidth} {pa : Word}
    (h : s.host.misaligned = .perform ∨ pa.toNat % w.bytes = 0) (kind : Access) :
    memReply s kind w pa = regionReply s kind w pa := by
  unfold memReply
  split
  · rfl
  · next hm => rw [if_pos (h.resolve_left (by simp [hm]))]

theorem regionReply_outside {s : State} {w : MemWidth} {pa : Word}
    (h : ∀ r ∈ s.host.regions, ¬ Touches r pa w.bytes) (kind : Access) : regionReply s kind w pa = .perform := by
  have hf : s.host.regions.find? (fun r => touchesRegion r pa w.bytes) = none :=
    List.find?_eq_none.2 fun r hr => by simpa [touchesRegion_iff] using h r hr
  simp [regionReply, hf]

theorem regionReply_first {s : State} {w : MemWidth} {pa : Word} {before after : List Region} {r : Region}
    (hs : s.host.regions = before ++ r :: after) (hb : ∀ q ∈ before, ¬ Touches q pa w.bytes)
    (hr : Touches r pa w.bytes) (kind : Access) : regionReply s kind w pa = regionAnswer r kind := by
  have hf : before.find? (fun r => touchesRegion r pa w.bytes) = none :=
    List.find?_eq_none.2 fun q hq => by simpa [touchesRegion_iff] using hb q hq
  simp [regionReply, hs, List.find?_append, hf, (touchesRegion_iff r pa w.bytes).2 hr]

/-! ### Everything a meaning can do -/

/-- The state after a page-table walk's writes. -/
abbrev touched (s : State) (ts : List Touch) : State := { s with mem := s.mem.touch ts }

/-- The effects a meaning can have, with what each writes. -/
inductive Effect (i : Instr) (s : State) : State → Prop
  | illegal : Effect i s { s with legal := false }
  | writesX (rd : XReg) (v : Word) (fl : FpFlags) (dest : destOf i = .x rd) (mem : isMemory i = false) :
      Effect i s ((s.writeX rd v).accrue fl).retire
  | writesF (F : Fmt) (rd : FReg) (v : BitVec F.width) (fl : FpFlags) (dest : destOf i = .f F rd)
      (mem : isMemory i = false) : Effect i s ((s.writeFp F rd v).accrue fl).retire
  | loads (F : Fmt) (rd : FReg) (v : BitVec F.width) (ts : List Touch) (dest : destOf i = .f F rd)
      (mem : isMemory i = true) : Effect i s ((touched s ts).writeFp F rd v).retire
  | stores (pa : Word) (n v : Nat) (ts : List Touch) (dest : destOf i = .none) (mem : isMemory i = true) :
      Effect i s ({ s with mem := (s.mem.touch ts).storeLE pa n v } : State).retire
  | traps (code ea : Word) (ts : List Touch) (mem : isMemory i = true) :
      Effect i s { touched s ts with mcause := code, mtval := ea, legal := true }

theorem accrue_none (s : State) : s.accrue FpFlag.none = s := by
  have h : (s.accrue FpFlag.none).fflags = s.fflags := by simp [FpFlag.none]
  show ({ s with fflags := (s.accrue FpFlag.none).fflags } : State) = s
  rw [h]

theorem finishX_effect {i : Instr} {s t : State} {rd : XReg} {v : Word} (hd : destOf i = .x rd)
    (hm : isMemory i = false) (h : finishX s rd v = .next t) : Effect i s t := by
  cases h
  have := Effect.writesX (s := s) rd v FpFlag.none hd hm
  rwa [accrue_none] at this

theorem finishXFlags_effect {i : Instr} {s t : State} {rd : XReg} {v : Word} {fl : FpFlags} (hd : destOf i = .x rd)
    (hm : isMemory i = false) (h : finishXFlags s rd v fl = .next t) : Effect i s t := by
  cases h; exact .writesX rd v fl hd hm

theorem finishF_effect {i : Instr} {s t : State} {F : Fmt} {rd : FReg} {v : BitVec F.width} (hd : destOf i = .f F rd)
    (hm : isMemory i = false) (h : finishF s F rd v = .next t) : Effect i s t := by
  cases h
  have := Effect.writesF (s := s) F rd v FpFlag.none hd hm
  rwa [accrue_none] at this

theorem finishFFlags_effect {i : Instr} {s t : State} {F : Fmt} {rd : FReg} {r : BitVec F.width × FpFlags}
    (hd : destOf i = .f F rd) (hm : isMemory i = false) (h : finishFFlags s F rd r = .next t) : Effect i s t := by
  cases h; exact .writesF F rd r.1 r.2 hd hm

theorem requireFormat_effect {i : Instr} {s t : State} {F : Fmt} {k : Result} (h : requireFormat s F k = .next t)
    (hk : k = .next t → Effect i s t) : Effect i s t := by
  unfold requireFormat at h
  split at h
  · exact hk h
  · cases h; exact .illegal

theorem requireRv64_effect {i : Instr} {s t : State} {k : Result} (h : requireRv64 s k = .next t)
    (hk : k = .next t → Effect i s t) : Effect i s t := by
  unfold requireRv64 at h
  split at h
  · exact hk h
  · cases h; exact .illegal

theorem requireFp_effect {i : Instr} {s t : State} {F : Fmt} {rm : Rm} {k : Mode → Result}
    (h : requireFp s F rm k = .next t) (hk : ∀ mode, k mode = .next t → Effect i s t) : Effect i s t :=
  requireFormat_effect h fun h => by
    unfold requireMode at h
    split at h
    · exact hk _ h
    · cases h; exact .illegal

theorem loadThen_effect {i : Instr} {s t : State} {F : Fmt} {w : MemWidth} {ea : Word} {rd : FReg}
    {g : Word → BitVec F.width} (hd : destOf i = .f F rd) (hm : isMemory i = true)
    (h : loadThen s w ea (fun v s' => finishF s' F rd (g v)) = .next t) : Effect i s t := by
  rcases andThen_next h with ⟨pa, s1, h1, h⟩ | ⟨code, s1, h1, h⟩
  · obtain ⟨ts, rfl⟩ := translate_ok h1
    rcases andThen_next h with ⟨v, s2, h2, h⟩ | ⟨code, s2, h2, h⟩
    · obtain ⟨rfl, -⟩ := memRead_ok h2
      cases h; exact .loads F rd _ ts hd hm
    · obtain rfl := memRead_error h2
      cases h; exact .traps code ea ts hm
  · obtain ⟨ts, rfl⟩ := translate_error h1
    cases h; exact .traps code ea ts hm

theorem storeThen_effect {i : Instr} {s t : State} {w : MemWidth} {ea v : Word} (hd : destOf i = .none)
    (hm : isMemory i = true) (h : storeThen s w ea v = .next t) : Effect i s t := by
  rcases andThen_next h with ⟨pa, s1, h1, h⟩ | ⟨code, s1, h1, h⟩
  · obtain ⟨ts, rfl⟩ := translate_ok h1
    rcases andThen_next h with ⟨r, s2, h2, h⟩ | ⟨code, s2, h2, h⟩
    · obtain rfl := memWrite_ok h2
      cases h; exact .stores pa w.bytes v.toNat ts hd hm
    · obtain rfl := memWrite_error h2
      cases h; exact .traps code ea ts hm
  · obtain ⟨ts, rfl⟩ := translate_error h1
    cases h; exact .traps code ea ts hm

theorem exec_effect {i : Instr} {s t : State} (h : exec i s = .next t) : Effect i s t := by
  cases i with
  | mul rd rs1 rs2 => exact finishX_effect rfl rfl h
  | mulh rd rs1 rs2 => exact finishX_effect rfl rfl h
  | mulhsu rd rs1 rs2 => exact finishX_effect rfl rfl h
  | mulhu rd rs1 rs2 => exact finishX_effect rfl rfl h
  | div rd rs1 rs2 => exact finishX_effect rfl rfl h
  | divu rd rs1 rs2 => exact finishX_effect rfl rfl h
  | rem rd rs1 rs2 => exact finishX_effect rfl rfl h
  | remu rd rs1 rs2 => exact finishX_effect rfl rfl h
  | mulw rd rs1 rs2 => exact requireRv64_effect h fun h => finishX_effect rfl rfl h
  | divw rd rs1 rs2 => exact requireRv64_effect h fun h => finishX_effect rfl rfl h
  | divuw rd rs1 rs2 => exact requireRv64_effect h fun h => finishX_effect rfl rfl h
  | remw rd rs1 rs2 => exact requireRv64_effect h fun h => finishX_effect rfl rfl h
  | remuw rd rs1 rs2 => exact requireRv64_effect h fun h => finishX_effect rfl rfl h
  | flw rd rs1 imm => exact requireFormat_effect h fun h => loadThen_effect (F := .S) (g := low32) rfl rfl h
  | fld rd rs1 imm => exact requireFormat_effect h fun h => loadThen_effect (F := .D) (g := fun v => v) rfl rfl h
  | fsw rs2 rs1 imm => exact requireFormat_effect h fun h => storeThen_effect rfl rfl h
  | fsd rs2 rs1 imm => exact requireFormat_effect h fun h => storeThen_effect rfl rfl h
  | fmaddS rd rs1 rs2 rs3 rm => exact requireFp_effect h fun _ h => finishFFlags_effect rfl rfl h
  | fmsubS rd rs1 rs2 rs3 rm => exact requireFp_effect h fun _ h => finishFFlags_effect rfl rfl h
  | fnmsubS rd rs1 rs2 rs3 rm => exact requireFp_effect h fun _ h => finishFFlags_effect rfl rfl h
  | fnmaddS rd rs1 rs2 rs3 rm => exact requireFp_effect h fun _ h => finishFFlags_effect rfl rfl h
  | fmaddD rd rs1 rs2 rs3 rm => exact requireFp_effect h fun _ h => finishFFlags_effect rfl rfl h
  | fmsubD rd rs1 rs2 rs3 rm => exact requireFp_effect h fun _ h => finishFFlags_effect rfl rfl h
  | fnmsubD rd rs1 rs2 rs3 rm => exact requireFp_effect h fun _ h => finishFFlags_effect rfl rfl h
  | fnmaddD rd rs1 rs2 rs3 rm => exact requireFp_effect h fun _ h => finishFFlags_effect rfl rfl h
  | faddS rd rs1 rs2 rm => exact requireFp_effect h fun _ h => finishFFlags_effect rfl rfl h
  | fsubS rd rs1 rs2 rm => exact requireFp_effect h fun _ h => finishFFlags_effect rfl rfl h
  | fmulS rd rs1 rs2 rm => exact requireFp_effect h fun _ h => finishFFlags_effect rfl rfl h
  | fdivS rd rs1 rs2 rm => exact requireFp_effect h fun _ h => finishFFlags_effect rfl rfl h
  | fsqrtS rd rs1 rm => exact requireFp_effect h fun _ h => finishFFlags_effect rfl rfl h
  | faddD rd rs1 rs2 rm => exact requireFp_effect h fun _ h => finishFFlags_effect rfl rfl h
  | fsubD rd rs1 rs2 rm => exact requireFp_effect h fun _ h => finishFFlags_effect rfl rfl h
  | fmulD rd rs1 rs2 rm => exact requireFp_effect h fun _ h => finishFFlags_effect rfl rfl h
  | fdivD rd rs1 rs2 rm => exact requireFp_effect h fun _ h => finishFFlags_effect rfl rfl h
  | fsqrtD rd rs1 rm => exact requireFp_effect h fun _ h => finishFFlags_effect rfl rfl h
  | fcvtWS rd rs1 rm => exact requireFp_effect h fun _ h => finishXFlags_effect rfl rfl h
  | fcvtWUS rd rs1 rm => exact requireFp_effect h fun _ h => finishXFlags_effect rfl rfl h
  | fcvtLS rd rs1 rm => exact requireRv64_effect h fun h => requireFp_effect h fun _ h => finishXFlags_effect rfl rfl h
  | fcvtLUS rd rs1 rm => exact requireRv64_effect h fun h => requireFp_effect h fun _ h => finishXFlags_effect rfl rfl h
  | fcvtSW rd rs1 rm => exact requireFp_effect h fun _ h => finishFFlags_effect rfl rfl h
  | fcvtSWU rd rs1 rm => exact requireFp_effect h fun _ h => finishFFlags_effect rfl rfl h
  | fcvtSL rd rs1 rm => exact requireRv64_effect h fun h => requireFp_effect h fun _ h => finishFFlags_effect rfl rfl h
  | fcvtSLU rd rs1 rm => exact requireRv64_effect h fun h => requireFp_effect h fun _ h => finishFFlags_effect rfl rfl h
  | fcvtWD rd rs1 rm => exact requireFp_effect h fun _ h => finishXFlags_effect rfl rfl h
  | fcvtWUD rd rs1 rm => exact requireFp_effect h fun _ h => finishXFlags_effect rfl rfl h
  | fcvtLD rd rs1 rm => exact requireRv64_effect h fun h => requireFp_effect h fun _ h => finishXFlags_effect rfl rfl h
  | fcvtLUD rd rs1 rm => exact requireRv64_effect h fun h => requireFp_effect h fun _ h => finishXFlags_effect rfl rfl h
  | fcvtDW rd rs1 rm => exact requireFp_effect h fun _ h => finishFFlags_effect rfl rfl h
  | fcvtDWU rd rs1 rm => exact requireFp_effect h fun _ h => finishFFlags_effect rfl rfl h
  | fcvtDL rd rs1 rm => exact requireRv64_effect h fun h => requireFp_effect h fun _ h => finishFFlags_effect rfl rfl h
  | fcvtDLU rd rs1 rm => exact requireRv64_effect h fun h => requireFp_effect h fun _ h => finishFFlags_effect rfl rfl h
  | fcvtSD rd rs1 rm => exact requireFp_effect h fun _ h => finishFFlags_effect rfl rfl h
  | fcvtDS rd rs1 rm => exact requireFp_effect h fun _ h => finishFFlags_effect rfl rfl h
  | fminS rd rs1 rs2 => exact requireFormat_effect h fun h => finishFFlags_effect rfl rfl h
  | fmaxS rd rs1 rs2 => exact requireFormat_effect h fun h => finishFFlags_effect rfl rfl h
  | fminD rd rs1 rs2 => exact requireFormat_effect h fun h => finishFFlags_effect rfl rfl h
  | fmaxD rd rs1 rs2 => exact requireFormat_effect h fun h => finishFFlags_effect rfl rfl h
  | feqS rd rs1 rs2 => exact requireFormat_effect h fun h => finishXFlags_effect rfl rfl h
  | fltS rd rs1 rs2 => exact requireFormat_effect h fun h => finishXFlags_effect rfl rfl h
  | fleS rd rs1 rs2 => exact requireFormat_effect h fun h => finishXFlags_effect rfl rfl h
  | feqD rd rs1 rs2 => exact requireFormat_effect h fun h => finishXFlags_effect rfl rfl h
  | fltD rd rs1 rs2 => exact requireFormat_effect h fun h => finishXFlags_effect rfl rfl h
  | fleD rd rs1 rs2 => exact requireFormat_effect h fun h => finishXFlags_effect rfl rfl h
  | fclassS rd rs1 => exact requireFormat_effect h fun h => finishX_effect rfl rfl h
  | fclassD rd rs1 => exact requireFormat_effect h fun h => finishX_effect rfl rfl h
  | fsgnjS rd rs1 rs2 => exact requireFormat_effect h fun h => finishF_effect rfl rfl h
  | fsgnjnS rd rs1 rs2 => exact requireFormat_effect h fun h => finishF_effect rfl rfl h
  | fsgnjxS rd rs1 rs2 => exact requireFormat_effect h fun h => finishF_effect rfl rfl h
  | fsgnjD rd rs1 rs2 => exact requireFormat_effect h fun h => finishF_effect rfl rfl h
  | fsgnjnD rd rs1 rs2 => exact requireFormat_effect h fun h => finishF_effect rfl rfl h
  | fsgnjxD rd rs1 rs2 => exact requireFormat_effect h fun h => finishF_effect rfl rfl h
  | fmvXW rd rs1 => exact requireFormat_effect h fun h => finishX_effect rfl rfl h
  | fmvWX rd rs1 => exact requireFormat_effect h fun h => finishF_effect rfl rfl h
  | fmvXD rd rs1 => exact requireRv64_effect h fun h => requireFormat_effect h fun h => finishX_effect rfl rfl h
  | fmvDX rd rs1 => exact requireRv64_effect h fun h => requireFormat_effect h fun h => finishF_effect rfl rfl h

end Sys2Proof.Machine
end

