-- ==== Sys2Proof/Tests/Slice0.lean ====
section
/-! SUPPORT. Tests of the model on the spec's own words and vectors, and a witness for the hypotheses of each obligation.
Expected values are those of spec/95_test_vectors.md, or hand calculations from the rule named. -/
namespace Sys2Proof.Tests
open Sys2Proof Sys2Proof.Machine

/-! ### WellFormed -/

/-- The check refuses the two reserved rounding modes (30_encoding.md rule R81) and accepts the others. -/
theorem test_wellFormed :
    Rm.wellFormed .reserved5 = false ∧ Rm.wellFormed .reserved6 = false ∧
    Instr.wellFormed (.faddS 1 2 3 .reserved5) = false ∧ Instr.wellFormed (.fcvtDS 1 2 .reserved6) = false ∧
    Instr.wellFormed (.fmaddD 1 2 3 4 .reserved5) = false ∧
    Instr.wellFormed (.faddS 1 2 3 .dyn) = true ∧ Instr.wellFormed (.mul 1 2 3) = true := by decide

/-! ### Decoding: words written out from the spec's fields -/

/-- Words of 30_encoding.md rules R76 to R80 and R102 to R106, field by field. -/
theorem test_decode_multiply :
    decode 0b0000001_01100_01011_000_01010_0110011#32 = .ok (.mul 10 11 12) ∧
    decode 0b0000001_01100_01011_001_01010_0110011#32 = .ok (.mulh 10 11 12) ∧
    decode 0b0000001_01100_01011_010_01010_0110011#32 = .ok (.mulhsu 10 11 12) ∧
    decode 0b0000001_01100_01011_011_01010_0110011#32 = .ok (.mulhu 10 11 12) ∧
    decode 0b0000001_01100_01011_000_01010_0111011#32 = .ok (.mulw 10 11 12) := by decide

/-- Words of 30_encoding.md rules R76 to R80 and R120 to R127, field by field. -/
theorem test_decode_divide :
    decode 0b0000001_01100_01011_100_01010_0110011#32 = .ok (.div 10 11 12) ∧
    decode 0b0000001_01100_01011_101_01010_0110011#32 = .ok (.divu 10 11 12) ∧
    decode 0b0000001_01100_01011_110_01010_0110011#32 = .ok (.rem 10 11 12) ∧
    decode 0b0000001_01100_01011_111_01010_0110011#32 = .ok (.remu 10 11 12) ∧
    decode 0b0000001_01100_01011_100_01010_0111011#32 = .ok (.divw 10 11 12) ∧
    decode 0b0000001_01100_01011_101_01010_0111011#32 = .ok (.divuw 10 11 12) ∧
    decode 0b0000001_01100_01011_110_01010_0111011#32 = .ok (.remw 10 11 12) ∧
    decode 0b0000001_01100_01011_111_01010_0111011#32 = .ok (.remuw 10 11 12) := by decide

/-- Words of 30_encoding.md rules R76 to R80 and R280 to R283, field by field. -/
theorem test_decode_load_store :
    decode 0b111111111000_01011_010_01010_0000111#32 = .ok (.flw 10 11 (-8)) ∧
    decode 0b111111111000_01011_011_01010_0000111#32 = .ok (.fld 10 11 (-8)) ∧
    decode 0b1111111_01100_01011_010_11000_0100111#32 = .ok (.fsw 12 11 (-8)) ∧
    decode 0b1111111_01100_01011_011_11000_0100111#32 = .ok (.fsd 12 11 (-8)) := by decide

/-- Words of 30_encoding.md rules R76 to R80 and R195 to R202, field by field. -/
theorem test_decode_fused :
    decode 0b01101_00_01100_01011_000_01010_1000011#32 = .ok (.fmaddS 10 11 12 13 .rne) ∧
    decode 0b01101_00_01100_01011_001_01010_1000111#32 = .ok (.fmsubS 10 11 12 13 .rtz) ∧
    decode 0b01101_00_01100_01011_010_01010_1001011#32 = .ok (.fnmsubS 10 11 12 13 .rdn) ∧
    decode 0b01101_00_01100_01011_011_01010_1001111#32 = .ok (.fnmaddS 10 11 12 13 .rup) ∧
    decode 0b01101_01_01100_01011_100_01010_1000011#32 = .ok (.fmaddD 10 11 12 13 .rmm) ∧
    decode 0b01101_01_01100_01011_111_01010_1000111#32 = .ok (.fmsubD 10 11 12 13 .dyn) ∧
    decode 0b01101_01_01100_01011_000_01010_1001011#32 = .ok (.fnmsubD 10 11 12 13 .rne) ∧
    decode 0b01101_01_01100_01011_001_01010_1001111#32 = .ok (.fnmaddD 10 11 12 13 .rtz) := by decide

/-- Words of 30_encoding.md rules R76 to R80 and R185 to R194, field by field. -/
theorem test_decode_arith :
    decode 0b0000000_01100_01011_000_01010_1010011#32 = .ok (.faddS 10 11 12 .rne) ∧
    decode 0b0000100_01100_01011_001_01010_1010011#32 = .ok (.fsubS 10 11 12 .rtz) ∧
    decode 0b0001000_01100_01011_010_01010_1010011#32 = .ok (.fmulS 10 11 12 .rdn) ∧
    decode 0b0001100_01100_01011_011_01010_1010011#32 = .ok (.fdivS 10 11 12 .rup) ∧
    decode 0b0101100_00000_01011_100_01010_1010011#32 = .ok (.fsqrtS 10 11 .rmm) ∧
    decode 0b0000001_01100_01011_111_01010_1010011#32 = .ok (.faddD 10 11 12 .dyn) ∧
    decode 0b0000101_01100_01011_000_01010_1010011#32 = .ok (.fsubD 10 11 12 .rne) ∧
    decode 0b0001001_01100_01011_001_01010_1010011#32 = .ok (.fmulD 10 11 12 .rtz) ∧
    decode 0b0001101_01100_01011_010_01010_1010011#32 = .ok (.fdivD 10 11 12 .rdn) ∧
    decode 0b0101101_00000_01011_011_01010_1010011#32 = .ok (.fsqrtD 10 11 .rup) := by decide

/-- Words of 30_encoding.md rules R76 to R80 and R213 to R230, field by field. -/
theorem test_decode_convert :
    decode 0b1100000_00000_01011_000_01010_1010011#32 = .ok (.fcvtWS 10 11 .rne) ∧
    decode 0b1100000_00001_01011_001_01010_1010011#32 = .ok (.fcvtWUS 10 11 .rtz) ∧
    decode 0b1100000_00010_01011_010_01010_1010011#32 = .ok (.fcvtLS 10 11 .rdn) ∧
    decode 0b1100000_00011_01011_011_01010_1010011#32 = .ok (.fcvtLUS 10 11 .rup) ∧
    decode 0b1101000_00000_01011_100_01010_1010011#32 = .ok (.fcvtSW 10 11 .rmm) ∧
    decode 0b1101000_00001_01011_111_01010_1010011#32 = .ok (.fcvtSWU 10 11 .dyn) ∧
    decode 0b1101000_00010_01011_000_01010_1010011#32 = .ok (.fcvtSL 10 11 .rne) ∧
    decode 0b1101000_00011_01011_001_01010_1010011#32 = .ok (.fcvtSLU 10 11 .rtz) ∧
    decode 0b1100001_00000_01011_010_01010_1010011#32 = .ok (.fcvtWD 10 11 .rdn) ∧
    decode 0b1100001_00001_01011_011_01010_1010011#32 = .ok (.fcvtWUD 10 11 .rup) ∧
    decode 0b1100001_00010_01011_100_01010_1010011#32 = .ok (.fcvtLD 10 11 .rmm) ∧
    decode 0b1100001_00011_01011_111_01010_1010011#32 = .ok (.fcvtLUD 10 11 .dyn) ∧
    decode 0b1101001_00000_01011_000_01010_1010011#32 = .ok (.fcvtDW 10 11 .rne) ∧
    decode 0b1101001_00001_01011_001_01010_1010011#32 = .ok (.fcvtDWU 10 11 .rtz) ∧
    decode 0b1101001_00010_01011_010_01010_1010011#32 = .ok (.fcvtDL 10 11 .rdn) ∧
    decode 0b1101001_00011_01011_011_01010_1010011#32 = .ok (.fcvtDLU 10 11 .rup) ∧
    decode 0b0100000_00001_01011_100_01010_1010011#32 = .ok (.fcvtSD 10 11 .rmm) ∧
    decode 0b0100001_00000_01011_111_01010_1010011#32 = .ok (.fcvtDS 10 11 .dyn) := by decide

/-- Words of 30_encoding.md rules R76 to R80 and R241 to R254, field by field. -/
theorem test_decode_compare :
    decode 0b0010100_01100_01011_000_01010_1010011#32 = .ok (.fminS 10 11 12) ∧
    decode 0b0010100_01100_01011_001_01010_1010011#32 = .ok (.fmaxS 10 11 12) ∧
    decode 0b0010101_01100_01011_000_01010_1010011#32 = .ok (.fminD 10 11 12) ∧
    decode 0b0010101_01100_01011_001_01010_1010011#32 = .ok (.fmaxD 10 11 12) ∧
    decode 0b1010000_01100_01011_010_01010_1010011#32 = .ok (.feqS 10 11 12) ∧
    decode 0b1010000_01100_01011_001_01010_1010011#32 = .ok (.fltS 10 11 12) ∧
    decode 0b1010000_01100_01011_000_01010_1010011#32 = .ok (.fleS 10 11 12) ∧
    decode 0b1010001_01100_01011_010_01010_1010011#32 = .ok (.feqD 10 11 12) ∧
    decode 0b1010001_01100_01011_001_01010_1010011#32 = .ok (.fltD 10 11 12) ∧
    decode 0b1010001_01100_01011_000_01010_1010011#32 = .ok (.fleD 10 11 12) ∧
    decode 0b1110000_00000_01011_001_01010_1010011#32 = .ok (.fclassS 10 11) ∧
    decode 0b1110001_00000_01011_001_01010_1010011#32 = .ok (.fclassD 10 11) := by decide

/-- Words of 30_encoding.md rules R76 to R80 and R261 to R270, field by field. -/
theorem test_decode_sign_move :
    decode 0b0010000_01100_01011_000_01010_1010011#32 = .ok (.fsgnjS 10 11 12) ∧
    decode 0b0010000_01100_01011_001_01010_1010011#32 = .ok (.fsgnjnS 10 11 12) ∧
    decode 0b0010000_01100_01011_010_01010_1010011#32 = .ok (.fsgnjxS 10 11 12) ∧
    decode 0b0010001_01100_01011_000_01010_1010011#32 = .ok (.fsgnjD 10 11 12) ∧
    decode 0b0010001_01100_01011_001_01010_1010011#32 = .ok (.fsgnjnD 10 11 12) ∧
    decode 0b0010001_01100_01011_010_01010_1010011#32 = .ok (.fsgnjxD 10 11 12) ∧
    decode 0b1110000_00000_01011_000_01010_1010011#32 = .ok (.fmvXW 10 11) ∧
    decode 0b1111000_00000_01011_000_01010_1010011#32 = .ok (.fmvWX 10 11) ∧
    decode 0b1110001_00000_01011_000_01010_1010011#32 = .ok (.fmvXD 10 11) ∧
    decode 0b1111001_00000_01011_000_01010_1010011#32 = .ok (.fmvDX 10 11) := by decide

/-- Words that match no row: 95_test_vectors.md L9 to L15, L27, L31, and funct2 = 11 (L8). -/
theorem test_decode_rejects :
    decode 0x04B50553#32 = .error .funct7 ∧ decode 0x58158553#32 = .error .rs2 ∧
    decode 0xC0458553#32 = .error .rs2 ∧ decode 0x40058553#32 = .error .rs2 ∧
    decode 0x28C5A553#32 = .error .funct3 ∧ decode 0xA0C5B553#32 = .error .funct3 ∧
    decode 0x00059507#32 = .error .funct3 ∧ decode 0x06B50533#32 = .error .funct7 ∧
    decode 0x00B50533#32 = .error .funct7 ∧ decode 0x6EC58543#32 = .error .funct2 ∧
    decode 0x00000013#32 = .error .opcode := by decide

set_option Elab.async false

/-! ### One step, on the pre-state of 95_test_vectors.md -/

/-- The answer is a next state of which `P` holds. -/
def ran (r : Result) (P : State → Prop) [DecidablePred P] : Bool :=
  match r with
  | .next t => decide (P t)
  | _ => false

theorem of_ran {r : Result} {P : State → Prop} [DecidablePred P] (h : ran r P = true) : ∃ t, r = .next t ∧ P t := by
  cases r with
  | next t => exact ⟨t, rfl, of_decide_eq_true h⟩
  | fault f => cases h
  | refused f => cases h

/-- The same state, field by field. -/
abbrev Same (t u : State) : Prop :=
  t.x.toList = u.x.toList ∧ t.f.toList = u.f.toList ∧ t.pc = u.pc ∧ t.fflags = u.fflags ∧ t.legal = u.legal ∧
    t.mem = u.mem ∧ t.mcause = u.mcause ∧ t.mtval = u.mtval ∧ t.rv = u.rv ∧ t.misa = u.misa ∧ t.frm = u.frm ∧
    t.host = u.host ∧ t.offers = u.offers ∧ t.isC = u.isC

/-- The default pre-state: misa = 0x1028, pc = 0x1000, frm = 0. -/
def pre (rv : Rv) : State := { State.reset with rv := rv, pc := 0x1000 }

/-- x11 and x12 given. -/
def xs (rv : Rv) (a b : Word) : State := ((pre rv).writeX 11 a).writeX 12 b

/-- f11, f12 and f13 given. -/
def fs (a b c : Word) : State := (((pre .rv64).writeF 11 a).writeF 12 b).writeF 13 c

/-- The word, run next, gives x10 = v and the flags, with pc = 0x1004 and nothing else changed. -/
abbrev ranX (w : Nat) (s : State) (v : Word) (fl : FpFlags) : Prop :=
  ran (step (s.withFetchWord 32 w)) (fun t => Same t { s.writeX 10 v with fflags := fl, pc := 0x1004 }) = true

/-- The word, run next, gives f10 = v and the flags, with pc = 0x1004 and nothing else changed. -/
abbrev ranF (w : Nat) (s : State) (v : Word) (fl : FpFlags) : Prop :=
  ran (step (s.withFetchWord 32 w)) (fun t => Same t { s.writeF 10 v with fflags := fl, pc := 0x1004 }) = true

/-- The word, run next, is illegal and changes nothing else. -/
abbrev ranIllegal (w : Nat) (s : State) : Prop :=
  ran (step (s.withFetchWord 32 w)) (fun t => Same t { s with legal := false }) = true

/-- MUL. 95_test_vectors.md M3, M32-1. -/
theorem test_mul :
    ranX 0x02C58533 (xs .rv64 0x8000000000000000 2) 0 0 ∧
    ranX 0x02C58533 (xs .rv32 0xFFFFFFFF 0xFFFFFFFF) 1 0 := by decide +kernel

/-- MULH. 95_test_vectors.md M7, M32-2. -/
theorem test_mulh :
    ranX 0x02C59533 (xs .rv64 5 0xFFFFFFFFFFFFFFFF) 0xFFFFFFFFFFFFFFFF 0 ∧
    ranX 0x02C59533 (xs .rv32 0x80000000 0x80000000) 0x40000000 0 := by decide +kernel

/-- MULHSU. 95_test_vectors.md M11, M13. -/
theorem test_mulhsu :
    ranX 0x02C5A533 (xs .rv64 0xFFFFFFFFFFFFFFFF 0xFFFFFFFFFFFFFFFF) 0xFFFFFFFFFFFFFFFF 0 ∧
    ranX 0x02C5A533 (xs .rv64 0x8000000000000000 1) 0xFFFFFFFFFFFFFFFF 0 := by decide +kernel

/-- MULHU. 95_test_vectors.md M8, M10. -/
theorem test_mulhu :
    ranX 0x02C5B533 (xs .rv64 0xFFFFFFFFFFFFFFFF 0xFFFFFFFFFFFFFFFF) 0xFFFFFFFFFFFFFFFE 0 ∧
    ranX 0x02C5B533 (xs .rv64 0x100000000 0x100000000) 1 0 := by decide +kernel

/-- DIV. 95_test_vectors.md V3, V5. -/
theorem test_div :
    ranX 0x02C5C533 (xs .rv64 7 0xFFFFFFFFFFFFFFFE) 0xFFFFFFFFFFFFFFFD 0 ∧
    ranX 0x02C5C533 (xs .rv64 0x8000000000000000 0xFFFFFFFFFFFFFFFF) 0x8000000000000000 0 := by decide +kernel

/-- DIVU. 95_test_vectors.md V6, V7. -/
theorem test_divu :
    ranX 0x02C5D533 (xs .rv64 0xFFFFFFFFFFFFFFFF 2) 0x7FFFFFFFFFFFFFFF 0 ∧
    ranX 0x02C5D533 (xs .rv64 7 0) 0xFFFFFFFFFFFFFFFF 0 := by decide +kernel

/-- REM. 95_test_vectors.md V9, V12. -/
theorem test_rem :
    ranX 0x02C5E533 (xs .rv64 0xFFFFFFFFFFFFFFF9 2) 0xFFFFFFFFFFFFFFFF 0 ∧
    ranX 0x02C5E533 (xs .rv64 0x8000000000000000 0xFFFFFFFFFFFFFFFF) 0 0 := by decide +kernel

/-- REMU. 95_test_vectors.md V13, V14. -/
theorem test_remu :
    ranX 0x02C5F533 (xs .rv64 7 0) 7 0 ∧
    ranX 0x02C5F533 (xs .rv64 0xFFFFFFFFFFFFFFFF 0xA) 5 0 := by decide +kernel

/-- MULW. 95_test_vectors.md M15, M17. -/
theorem test_mulw :
    ranX 0x02C5853B (xs .rv64 0xFFFFFFFF00000003 0x500000005) 0xF 0 ∧
    ranX 0x02C5853B (xs .rv64 0x8000 0x10000) 0xFFFFFFFF80000000 0 := by decide +kernel

/-- DIVW. 95_test_vectors.md V15, V16. -/
theorem test_divw :
    ranX 0x02C5C53B (xs .rv64 0x80000000 0xFFFFFFFF) 0xFFFFFFFF80000000 0 ∧
    ranX 0x02C5C53B (xs .rv64 0x100000007 2) 3 0 := by decide +kernel

/-- DIVUW. 95_test_vectors.md V18, V19. -/
theorem test_divuw :
    ranX 0x02C5D53B (xs .rv64 0xFFFFFFFF 0) 0xFFFFFFFFFFFFFFFF 0 ∧
    ranX 0x02C5D53B (xs .rv64 0xFFFFFFFE 1) 0xFFFFFFFFFFFFFFFE 0 := by decide +kernel

/-- REMW. 95_test_vectors.md V20, V21. -/
theorem test_remw :
    ranX 0x02C5E53B (xs .rv64 0x80000000 0xFFFFFFFF) 0 0 ∧
    ranX 0x02C5E53B (xs .rv64 0xFFFFFFFFFFFFFFF9 0) 0xFFFFFFFFFFFFFFF9 0 := by decide +kernel

/-- REMUW. 95_test_vectors.md V22, V23. -/
theorem test_remuw :
    ranX 0x02C5F53B (xs .rv64 0x80000000 0) 0xFFFFFFFF80000000 0 ∧
    ranX 0x02C5F53B (xs .rv64 0x123456789 0x10) 9 0 := by decide +kernel

/-- FMADD.S. 95_test_vectors.md F9, F12. -/
theorem test_fmaddS :
    ranF 0x68C58543 (fs 0xFFFFFFFF00000000 0xFFFFFFFF7F800000 0xFFFFFFFF7FC00000) 0xFFFFFFFF7FC00000 FpFlag.nv ∧
    ranF 0x68C58543 (fs 0xFFFFFFFF3F800001 0xFFFFFFFF3F7FFFFE 0xFFFFFFFFBF800000) 0xFFFFFFFFA8800000 0 := by decide +kernel

/-- FMSUB.S. 95_test_vectors.md F2. -/
theorem test_fmsubS :
    ranF 0x68C58547 (fs 0xFFFFFFFF40000000 0xFFFFFFFF40400000 0xFFFFFFFF3F800000) 0xFFFFFFFF40A00000 0 := by decide +kernel

/-- FNMSUB.S. 95_test_vectors.md F3, F8. -/
theorem test_fnmsubS :
    ranF 0x68C5854B (fs 0xFFFFFFFF40000000 0xFFFFFFFF40400000 0xFFFFFFFF3F800000) 0xFFFFFFFFC0A00000 0 ∧
    ranF 0x68C5854B (fs 0xFFFFFFFF00000000 0xFFFFFFFF3F800000 0xFFFFFFFF00000000) 0xFFFFFFFF00000000 0 := by decide +kernel

/-- FNMADD.S. 95_test_vectors.md F4, F7. -/
theorem test_fnmaddS :
    ranF 0x68C5854F (fs 0xFFFFFFFF40000000 0xFFFFFFFF40400000 0xFFFFFFFF3F800000) 0xFFFFFFFFC0E00000 0 ∧
    ranF 0x68C5854F (fs 0xFFFFFFFF00000000 0xFFFFFFFF3F800000 0xFFFFFFFF00000000) 0xFFFFFFFF80000000 0 := by decide +kernel

/-- FMADD.D. 95_test_vectors.md F14. -/
theorem test_fmaddD :
    ranF 0x6AC58543 (fs 0x3FF0000000000001 0x3FEFFFFFFFFFFFFE 0xBFF0000000000000) 0xB970000000000000 0 := by decide +kernel

/-- FMSUB.D. 95_test_vectors.md F15. -/
theorem test_fmsubD :
    ranF 0x6AC58547 (fs 0x3FB999999999999A 0x4024000000000000 0x3FF0000000000000) 0x3C90000000000000 0 := by decide +kernel

/-- FNMSUB.D. By hand from 43_fp_arith.md rules R184, R201: −(2·3) + 1 = −5. -/
theorem test_fnmsubD :
    ranF 0x6AC5854B (fs 0x4000000000000000 0x4008000000000000 0x3FF0000000000000) 0xC014000000000000 0 := by decide +kernel

/-- FNMADD.D. 95_test_vectors.md F16. -/
theorem test_fnmaddD :
    ranF 0x6AC5B54F (fs 0x3FF0000000000000 0x3FF0000000000000 0x3FF0000000000000) 0xC000000000000000 0 := by decide +kernel

/-- FADD.S. 95_test_vectors.md A3, A11. -/
theorem test_faddS :
    ranF 0x00C58553 (fs 0xFFFFFFFF3F800000 0xFFFFFFFF33C00000 0) 0xFFFFFFFF3F800001 FpFlag.nx ∧
    ranF 0x00C58553 (fs 0xFFFFFFFF7F800001 0xFFFFFFFF3F800000 0) 0xFFFFFFFF7FC00000 FpFlag.nv := by decide +kernel

/-- FSUB.S. 95_test_vectors.md A9. -/
theorem test_fsubS :
    ranF 0x08C5A553 (fs 0xFFFFFFFF3F800000 0xFFFFFFFF3F800000 0) 0xFFFFFFFF80000000 0 := by decide +kernel

/-- FMUL.S. 95_test_vectors.md A20, A21. -/
theorem test_fmulS :
    ranF 0x10C58553 (fs 0xFFFFFFFF00800000 0xFFFFFFFF3F7FFFFF 0) 0xFFFFFFFF00800000 (FpFlag.uf ||| FpFlag.nx) ∧
    ranF 0x10C58553 (fs 0xFFFFFFFF45918E00 0xFFFFFFFF00000709 0) 0xFFFFFFFF00800000 FpFlag.nx := by decide +kernel

/-- FDIV.S. 95_test_vectors.md A27, A29. -/
theorem test_fdivS :
    ranF 0x18C58553 (fs 0xFFFFFFFF3F800000 0xFFFFFFFF40400000 0) 0xFFFFFFFF3EAAAAAB FpFlag.nx ∧
    ranF 0x18C58553 (fs 0xFFFFFFFFBF800000 0xFFFFFFFF00000000 0) 0xFFFFFFFFFF800000 FpFlag.dz := by decide +kernel

/-- FSQRT.S. 95_test_vectors.md A35, A38. -/
theorem test_fsqrtS :
    ranF 0x5805B553 (fs 0xFFFFFFFF40000000 0 0) 0xFFFFFFFF3FB504F4 FpFlag.nx ∧
    ranF 0x58058553 (fs 0xFFFFFFFFBF800000 0 0) 0xFFFFFFFF7FC00000 FpFlag.nv := by decide +kernel

/-- FADD.D. 95_test_vectors.md A41, A51. -/
theorem test_faddD :
    ranF 0x02C58553 (fs 0x3FB999999999999A 0x3FC999999999999A 0) 0x3FD3333333333334 FpFlag.nx ∧
    ranF 0x02C58553 (fs 0xFFFFFFFF3F800000 0x3FF0000000000000 0) 0x7FF8000000000000 0 := by decide +kernel

/-- FSUB.D. 95_test_vectors.md A43. -/
theorem test_fsubD :
    ranF 0x0AC5A553 (fs 0x4000000000000000 0x4000000000000000 0) 0x8000000000000000 0 := by decide +kernel

/-- FMUL.D. 95_test_vectors.md A45, A46. -/
theorem test_fmulD :
    ranF 0x12C59553 (fs 0x7FEFFFFFFFFFFFFF 0x4000000000000000 0) 0x7FEFFFFFFFFFFFFF (FpFlag.of ||| FpFlag.nx) ∧
    ranF 0x12C58553 (fs 0x10000000000000 0x3FE0000000000000 0) 0x8000000000000 0 := by decide +kernel

/-- FDIV.D. 95_test_vectors.md A47, A48. -/
theorem test_fdivD :
    ranF 0x1AC58553 (fs 0x3FF0000000000000 0x4008000000000000 0) 0x3FD5555555555555 FpFlag.nx ∧
    ranF 0x1AC58553 (fs 0x3FF0000000000000 0x8000000000000000 0) 0xFFF0000000000000 FpFlag.dz := by decide +kernel

/-- FSQRT.D. 95_test_vectors.md A49, A50. -/
theorem test_fsqrtD :
    ranF 0x5A058553 (fs 0x4000000000000000 0 0) 0x3FF6A09E667F3BCD FpFlag.nx ∧
    ranF 0x5A058553 (fs 0xFFF0000000000000 0 0) 0x7FF8000000000000 FpFlag.nv := by decide +kernel

/-- FCVT.W.S. 95_test_vectors.md C3, C10. -/
theorem test_fcvtWS :
    ranX 0xC005A553 (fs 0xFFFFFFFFC0200000 0 0) 0xFFFFFFFFFFFFFFFD FpFlag.nx ∧
    ranX 0xC0058553 (fs 0x3F800000 0 0) 0x7FFFFFFF FpFlag.nv := by decide +kernel

/-- FCVT.WU.S. 95_test_vectors.md C12, C13. -/
theorem test_fcvtWUS :
    ranX 0xC0158553 (fs 0xFFFFFFFFBF19999A 0 0) 0 FpFlag.nv ∧
    ranX 0xC0158553 (fs 0xFFFFFFFF4F32D05E 0 0) 0xFFFFFFFFB2D05E00 0 := by decide +kernel

/-- FCVT.L.S. 95_test_vectors.md C15, C16. -/
theorem test_fcvtLS :
    ranX 0xC0258553 (fs 0xFFFFFFFFDF000000 0 0) 0x8000000000000000 0 ∧
    ranX 0xC0258553 (fs 0xFFFFFFFF5F000000 0 0) 0x7FFFFFFFFFFFFFFF FpFlag.nv := by decide +kernel

/-- FCVT.LU.S. 95_test_vectors.md C17, C18. -/
theorem test_fcvtLUS :
    ranX 0xC0359553 (fs 0xFFFFFFFF3FF33333 0 0) 1 FpFlag.nx ∧
    ranX 0xC0358553 (fs 0xFFFFFFFF7F800000 0 0) 0xFFFFFFFFFFFFFFFF FpFlag.nv := by decide +kernel

/-- FCVT.S.W. 95_test_vectors.md C20, C22. -/
theorem test_fcvtSW :
    ranF 0xD005B553 (xs .rv64 0x1000001 0) 0xFFFFFFFF4B800001 FpFlag.nx ∧
    ranF 0xD0058553 (xs .rv64 0xFFFFFFFF 0) 0xFFFFFFFFBF800000 0 := by decide +kernel

/-- FCVT.S.WU. 95_test_vectors.md C24, C25. -/
theorem test_fcvtSWU :
    ranF 0xD0159553 (xs .rv64 0xFFFFFFFF 0) 0xFFFFFFFF4F7FFFFF FpFlag.nx ∧
    ranF 0xD0158553 (xs .rv64 0xFFFFFFFF00000001 0) 0xFFFFFFFF3F800000 0 := by decide +kernel

/-- FCVT.S.L. 95_test_vectors.md C26, C28. -/
theorem test_fcvtSL :
    ranF 0xD0258553 (xs .rv64 0xFFFFFFFFFFFFFFFF 0) 0xFFFFFFFFBF800000 0 ∧
    ranF 0xD0258553 (xs .rv64 0 0) 0xFFFFFFFF00000000 0 := by decide +kernel

/-- FCVT.S.LU. 95_test_vectors.md C27. -/
theorem test_fcvtSLU :
    ranF 0xD0358553 (xs .rv64 0xFFFFFFFFFFFFFFFF 0) 0xFFFFFFFF5F800000 FpFlag.nx := by decide +kernel

/-- FCVT.W.D. 95_test_vectors.md C29, C30. -/
theorem test_fcvtWD :
    ranX 0xC2058553 (fs 0xC1E0000000100000 0 0) 0xFFFFFFFF80000000 FpFlag.nx ∧
    ranX 0xC205A553 (fs 0xC1E0000000100000 0 0) 0xFFFFFFFF80000000 FpFlag.nv := by decide +kernel

/-- FCVT.WU.D. 95_test_vectors.md C31, C32. -/
theorem test_fcvtWUD :
    ranX 0xC2158553 (fs 0x41EFFFFFFFE00000 0 0) 0xFFFFFFFFFFFFFFFF 0 ∧
    ranX 0xC2158553 (fs 0xFFF8000000000000 0 0) 0xFFFFFFFFFFFFFFFF FpFlag.nv := by decide +kernel

/-- FCVT.L.D. 95_test_vectors.md C33, C34. -/
theorem test_fcvtLD :
    ranX 0xC2258553 (fs 0x43E0000000000000 0 0) 0x7FFFFFFFFFFFFFFF FpFlag.nv ∧
    ranX 0xC2258553 (fs 0xC00C000000000000 0 0) 0xFFFFFFFFFFFFFFFC FpFlag.nx := by decide +kernel

/-- FCVT.LU.D. 95_test_vectors.md C35, C36. -/
theorem test_fcvtLUD :
    ranX 0xC2358553 (fs 0xBFF0000000000000 0 0) 0 FpFlag.nv ∧
    ranX 0xC2358553 (fs 0x43EFFFFFFFFFFFFF 0 0) 0xFFFFFFFFFFFFF800 0 := by decide +kernel

/-- FCVT.D.W. 95_test_vectors.md C37. -/
theorem test_fcvtDW :
    ranF 0xD2058553 (xs .rv64 0xFFFFFFFF 0) 0xBFF0000000000000 0 := by decide +kernel

/-- FCVT.D.WU. 95_test_vectors.md C38. -/
theorem test_fcvtDWU :
    ranF 0xD2158553 (xs .rv64 0xFFFFFFFF 0) 0x41EFFFFFFFE00000 0 := by decide +kernel

/-- FCVT.D.L. 95_test_vectors.md C39, C40. -/
theorem test_fcvtDL :
    ranF 0xD2258553 (xs .rv64 0x20000000000001 0) 0x4340000000000000 FpFlag.nx ∧
    ranF 0xD225B553 (xs .rv64 0x20000000000001 0) 0x4340000000000001 FpFlag.nx := by decide +kernel

/-- FCVT.D.LU. 95_test_vectors.md C41, C42. -/
theorem test_fcvtDLU :
    ranF 0xD2358553 (xs .rv64 0xFFFFFFFFFFFFFFFF 0) 0x43F0000000000000 FpFlag.nx ∧
    ranF 0xD2359553 (xs .rv64 0xFFFFFFFFFFFFFFFF 0) 0x43EFFFFFFFFFFFFF FpFlag.nx := by decide +kernel

/-- FCVT.S.D. 95_test_vectors.md C44, C47. -/
theorem test_fcvtSD :
    ranF 0x40158553 (fs 0x7E37E43C8800759C 0 0) 0xFFFFFFFF7F800000 (FpFlag.of ||| FpFlag.nx) ∧
    ranF 0x4015B553 (fs 0x3690000000000000 0 0) 0xFFFFFFFF00000001 (FpFlag.uf ||| FpFlag.nx) := by decide +kernel

/-- FCVT.D.S. 95_test_vectors.md C51, C53. -/
theorem test_fcvtDS :
    ranF 0x42058553 (fs 0xFFFFFFFF7F800001 0 0) 0x7FF8000000000000 FpFlag.nv ∧
    ranF 0x42058553 (fs 0xFFFFFFFF00000001 0 0) 0x36A0000000000000 0 := by decide +kernel

/-- FMIN.S. 95_test_vectors.md K15, K19. -/
theorem test_fminS :
    ranF 0x28C58553 (fs 0xFFFFFFFF00000000 0xFFFFFFFF80000000 0) 0xFFFFFFFF80000000 0 ∧
    ranF 0x28C58553 (fs 0xFFFFFFFF7F800001 0xFFFFFFFF7F800002 0) 0xFFFFFFFF7FC00000 FpFlag.nv := by decide +kernel

/-- FMAX.S. 95_test_vectors.md K16, K21. -/
theorem test_fmaxS :
    ranF 0x28C59553 (fs 0xFFFFFFFF80000000 0xFFFFFFFF00000000 0) 0xFFFFFFFF00000000 0 ∧
    ranF 0x28C59553 (fs 0x3F800000 0xFFFFFFFF40000000 0) 0xFFFFFFFF40000000 0 := by decide +kernel

/-- FMIN.D. 95_test_vectors.md K22. -/
theorem test_fminD :
    ranF 0x2AC58553 (fs 0x7FF0000000000001 0x3FF0000000000000 0) 0x3FF0000000000000 FpFlag.nv := by decide +kernel

/-- FMAX.D. 95_test_vectors.md K23. -/
theorem test_fmaxD :
    ranF 0x2AC59553 (fs 0xFFF0000000000000 0xFFE1CCF385EBC8A0 0) 0xFFE1CCF385EBC8A0 0 := by decide +kernel

/-- FEQ.S. 95_test_vectors.md K2, K4. -/
theorem test_feqS :
    ranX 0xA0C5A553 (fs 0xFFFFFFFF00000000 0xFFFFFFFF80000000 0) 1 0 ∧
    ranX 0xA0C5A553 (fs 0xFFFFFFFF7F800001 0xFFFFFFFF3F800000 0) 0 FpFlag.nv := by decide +kernel

/-- FLT.S. 95_test_vectors.md K5, K7. -/
theorem test_fltS :
    ranX 0xA0C59553 (fs 0xFFFFFFFF7FC00000 0xFFFFFFFF3F800000 0) 0 FpFlag.nv ∧
    ranX 0xA0C59553 (fs 0xFFFFFFFFFF800000 0xFFFFFFFF7F800000 0) 1 0 := by decide +kernel

/-- FLE.S. 95_test_vectors.md K8, K9. -/
theorem test_fleS :
    ranX 0xA0C58553 (fs 0xFFFFFFFF80000000 0xFFFFFFFF00000000 0) 1 0 ∧
    ranX 0xA0C58553 (fs 0xFFFFFFFF40000000 0xFFFFFFFF3F800000 0) 0 0 := by decide +kernel

/-- FEQ.D. 95_test_vectors.md K10. -/
theorem test_feqD :
    ranX 0xA2C5A553 (fs 0x7FF8000000000000 0x7FF8000000000000 0) 0 0 := by decide +kernel

/-- FLT.D. 95_test_vectors.md K11. -/
theorem test_fltD :
    ranX 0xA2C59553 (fs 0x3FF0000000000000 0x4000000000000000 0) 1 0 := by decide +kernel

/-- FLE.D. 95_test_vectors.md K12. -/
theorem test_fleD :
    ranX 0xA2C58553 (fs 0x7FF0000000000001 0x3FF0000000000000 0) 0 FpFlag.nv := by decide +kernel

/-- FCLASS.S. 95_test_vectors.md K26, K34. -/
theorem test_fclassS :
    ranX 0xE0059553 (fs 0xFFFFFFFF80000001 0 0) 4 0 ∧
    ranX 0xE0059553 (fs 0x3F800000 0 0) 0x200 0 := by decide +kernel

/-- FCLASS.D. 95_test_vectors.md K35, K37. -/
theorem test_fclassD :
    ranX 0xE2059553 (fs 0xFFF0000000000000 0 0) 1 0 ∧
    ranX 0xE2059553 (fs 0x7FF0000000000001 0 0) 0x100 0 := by decide +kernel

/-- FSGNJ.S. 95_test_vectors.md G1, G6. -/
theorem test_fsgnjS :
    ranF 0x20C58553 (fs 0xFFFFFFFF3F800000 0xFFFFFFFFC0000000 0) 0xFFFFFFFFBF800000 0 ∧
    ranF 0x20C58553 (fs 0x3F800000 0xFFFFFFFFBF800000 0) 0xFFFFFFFFFFC00000 0 := by decide +kernel

/-- FSGNJN.S. 95_test_vectors.md G5. -/
theorem test_fsgnjnS :
    ranF 0x20C59553 (fs 0xFFFFFFFF7F800001 0xFFFFFFFF7F800001 0) 0xFFFFFFFFFF800001 0 := by decide +kernel

/-- FSGNJX.S. 95_test_vectors.md G3, G4. -/
theorem test_fsgnjxS :
    ranF 0x20C5A553 (fs 0xFFFFFFFFBF800000 0xFFFFFFFFC0000000 0) 0xFFFFFFFF3F800000 0 ∧
    ranF 0x20C5A553 (fs 0xFFFFFFFFC0400000 0xFFFFFFFFC0400000 0) 0xFFFFFFFF40400000 0 := by decide +kernel

/-- FSGNJ.D. 95_test_vectors.md G7. -/
theorem test_fsgnjD :
    ranF 0x22C58553 (fs 0x3FF0000000000000 0x8000000000000000 0) 0xBFF0000000000000 0 := by decide +kernel

/-- FSGNJN.D. 95_test_vectors.md G8. -/
theorem test_fsgnjnD :
    ranF 0x22C59553 (fs 0xFFFFFFFF3F800000 0xFFFFFFFF3F800000 0) 0x7FFFFFFF3F800000 0 := by decide +kernel

/-- FSGNJX.D. 95_test_vectors.md G9. -/
theorem test_fsgnjxD :
    ranF 0x22C5A553 (fs 0xC000000000000000 0xC014000000000000 0) 0x4000000000000000 0 := by decide +kernel

/-- FMV.X.W. 95_test_vectors.md G10, G11. -/
theorem test_fmvXW :
    ranX 0xE0058553 (fs 0xFFFFFFFFBF800000 0 0) 0xFFFFFFFFBF800000 0 ∧
    ranX 0xE0058553 (fs 0x80000000 0 0) 0xFFFFFFFF80000000 0 := by decide +kernel

/-- FMV.W.X. 95_test_vectors.md G13, G14. -/
theorem test_fmvWX :
    ranF 0xF0058553 (xs .rv64 0x123456783F800000 0) 0xFFFFFFFF3F800000 0 ∧
    ranF 0xF0058553 (xs .rv64 0xFF800001 0) 0xFFFFFFFFFF800001 0 := by decide +kernel

/-- FMV.X.D. 95_test_vectors.md G12. -/
theorem test_fmvXD :
    ranX 0xE2058553 (fs 0xC000000000000000 0 0) 0xC000000000000000 0 := by decide +kernel

/-- FMV.D.X. 95_test_vectors.md G15. -/
theorem test_fmvDX :
    ranF 0xF2058553 (xs .rv64 0x400921FB54442D18 0) 0x400921FB54442D18 0 := by decide +kernel

/-! ### Loads, stores, legality -/

/-- Memory with the given bytes from address 0x2008. -/
def bytesAt (pa : Word) (l : List Byte) (s : State) : State :=
  { s with mem := (l.zipIdx.foldl (fun m p => m.write (pa + BitVec.ofNat 64 p.2).toNat p.1) s.mem) }

/-- FLW. 95_test_vectors.md S2, S6. -/
theorem test_flw :
    ranF 0x0085A507 (bytesAt 0x2008 [0x01, 0x00, 0x80, 0x7F] (xs .rv64 0x2000 0)) 0xFFFFFFFF7F800001 0 ∧
    ranF 0xFFC02507 (bytesAt 0xFFFFFFFFFFFFFFFC [0x00, 0x00, 0xC0, 0x7F] (pre .rv64)) 0xFFFFFFFF7FC00000 0 := by
  decide +kernel

/-- FLD. 95_test_vectors.md S3, S9. -/
theorem test_fld :
    ranF 0xFF85B507 (bytesAt 0x2008 [0x18, 0x2D, 0x44, 0x54, 0xFB, 0x21, 0x09, 0x40] (xs .rv64 0x2010 0))
      0x400921FB54442D18 0 ∧
    ranF 0x0105B507 (bytesAt 0 [0, 0, 0, 0, 0, 0, 0xF0, 0x3F] (xs .rv32 0xFFFFFFF0 0)) 0x3FF0000000000000 0 := by
  decide +kernel

/-- FSW. 95_test_vectors.md S4: the four low bytes, none after them. -/
theorem test_fsw :
    ran (step (((fs 0x400921FB54442D18 0 0).writeX 10 0x2000).withFetchWord 32 0x00B52427)) (fun t =>
      Same t { bytesAt 0x2008 [0x18, 0x2D, 0x44, 0x54] ((fs 0x400921FB54442D18 0 0).writeX 10 0x2000) with
        pc := 0x1004 }) = true := by decide +kernel

/-- FSD. 95_test_vectors.md S5. -/
theorem test_fsd :
    ran (step (((fs 0xFFFFFFFF3F800000 0 0).writeX 10 0x2010).withFetchWord 32 0xFEB53C27)) (fun t =>
      Same t { bytesAt 0x2008 [0, 0, 0x80, 0x3F, 0xFF, 0xFF, 0xFF, 0xFF]
        ((fs 0xFFFFFFFF3F800000 0 0).writeX 10 0x2010) with pc := 0x1004 }) = true := by decide +kernel

/-- A region at 0x3000 whose loads answer code 5, and a translation of 0x3000 whose stores answer code 15. -/
def badLoads : State :=
  { xs .rv64 0x3000 0 with
    host := { Config.resetHost with regions := [⟨0x3000, 16, .error (some 5), .perform⟩] } }

def badStores : State :=
  { xs .rv64 0x3000 0 with
    host := { Config.resetHost with
      vmActive := true
      translations := [⟨0x3000, 16, .mapTo 0x8000 [], .error 15 [⟨0x9000, 1⟩]⟩] } }

/-- 95_test_vectors.md S7, S8, S10; in S8 the walk's own write stays (20_memory.md rule R52). -/
theorem test_memory_errors :
    ran (step (badLoads.withFetchWord 32 0x0045A507)) (fun t =>
      Same t { badLoads with mcause := 5, mtval := 0x3004 }) = true ∧
    ran (step (badStores.withFetchWord 32 0x00C5B427)) (fun t =>
      Same t { badStores with mcause := 15, mtval := 0x3008, mem := [(0x9000, 1)] }) = true ∧
    ranIllegal 0x0005B507 { badLoads with misa := 0x20 } := by decide +kernel

/-- 95_test_vectors.md L1 to L4, L9, L16 to L18, L21, L23, L25, L31, and L5, L20, L28, L29, L30. -/
theorem test_legality :
    ranIllegal 0x00C5D553 (pre .rv64) ∧ ranIllegal 0x00C5E553 (pre .rv64) ∧
    ranIllegal 0x00C5F553 { pre .rv64 with frm := 5 } ∧ ranIllegal 0x00C5F553 { pre .rv64 with frm := 7 } ∧
    ranIllegal 0x04B50553 (pre .rv64) ∧ ranIllegal 0x00C58553 { pre .rv64 with misa := 0x8 } ∧
    ranIllegal 0x02C58553 { pre .rv64 with misa := 0x20 } ∧ ranIllegal 0x40158553 { pre .rv64 with misa := 0x20 } ∧
    ranIllegal 0x02C5853B (pre .rv32) ∧ ranIllegal 0xC0258553 (pre .rv32) ∧ ranIllegal 0xE2058553 (pre .rv32) ∧
    ranIllegal 0x00B50533 (pre .rv64) ∧
    ranF 0x00C5F553 { fs 0xFFFFFFFF3F800000 0xFFFFFFFF33800000 0 with frm := 3 } 0xFFFFFFFF3F800001 FpFlag.nx ∧
    ranX 0x02C58533 { xs .rv64 6 7 with misa := 0x28 } 42 0 ∧
    ran (step ((xs .rv64 6 7).withFetchWord 32 0x02C58033)) (fun t => Same t { xs .rv64 6 7 with pc := 0x1004 }) = true ∧
    ran (step ((fs 0xFFFFFFFF7FC00000 0 0).withFetchWord 32 0xC0058053)) (fun t =>
      Same t { fs 0xFFFFFFFF7FC00000 0 0 with pc := 0x1004, fflags := FpFlag.nv }) = true ∧
    ran (step { xs .rv64 6 7 with offers := [⟨0x02C58533, true⟩] }) (fun t =>
      Same t { (xs .rv64 6 7).writeX 10 42 with pc := 0x1002, isC := true }) = true := by decide +kernel

/-! ### Witnesses: states and operands that meet the hypotheses of each obligation -/

theorem witness_DecodesExactlyTheTable :
    decode 0x02C58533#32 = .ok (.mul 10 11 12) ∧ ∃ r ∈ opcodeRows, 0x02C58533#32 &&& r.mask = r.pattern := by decide

theorem witness_EncodeOfDecode : decode 0xFEB53C27#32 = .ok (.fsd 11 10 (-8)) := by decide

theorem witness_StepRunsDecodedWord :
    { pre .rv64 with offers := [⟨0x02C58533, true⟩] }.offers = ⟨0x02C58533, true⟩ :: [] ∧
    decode 0x02C58533#32 = .ok (.mul 10 11 12) ∧ State.reset.offers = [] := by decide

theorem witness_IllegalWordsWriteNothing :
    (opcodeField 0x00000013#32).toNat ∉ [0x33, 0x3B, 0x07, 0x27, 0x53, 0x43, 0x47, 0x4B, 0x4F] ∧
    (needsFormat (.faddS 10 11 12 .dyn) = some .S ∧ ¬ HasF { pre .rv64 with misa := 0x1008 }) ∧
    (needsFormat (.faddD 10 11 12 .dyn) = some .D ∧ ¬ HasFD { pre .rv64 with misa := 0x1020 }) ∧
    (Instr.rmField (.faddS 10 11 12 .dyn) = some .dyn ∧ rmLegal .dyn 5 = false) ∧
    (Instr.rmField (.fcvtDS 10 11 .reserved6) = some .reserved6 ∧ rmLegal .reserved6 0 = false) ∧
    needsRv64 (.mulw 10 11 12) = true ∧ (pre .rv32).rv = .rv32 := by
  unfold HasF HasFD
  decide

/-- A word under an opcode of the block that is no instruction (95_test_vectors.md L9: an unlisted funct7). -/
theorem witness_IllegalWordsWriteNothing_unlisted :
    (∀ i, decode 0x04B50553#32 ≠ .ok i) ∧ (opcodeField 0x04B50553#32).toNat = 0x53 := by
  have h : decode 0x04B50553#32 = .error .funct7 := by decide
  exact ⟨fun i hi => by simp [h] at hi, by decide⟩

theorem witness_IllegalReturnsInputState :
    (∃ t, exec (.mulw 10 11 12) (pre .rv32) = .next t ∧ t.legal = false) ∧
    ∃ t, transact 0x00000013 (pre .rv64) = .next t ∧ t.legal = false :=
  ⟨of_ran (by decide +kernel), of_ran (by decide +kernel)⟩

theorem witness_LegalExactlyByTheList :
    legalIn (.mulw 10 11 12) (pre .rv32) = false ∧ legalIn (.mulw 10 11 12) (pre .rv64) = true ∧
    ∃ t, exec (.mulw 10 11 12) (pre .rv64) = .next t ∧ t.legal = true :=
  ⟨by decide, by decide, of_ran (by decide +kernel)⟩

/-- An RV32 state that meets the invariant and can step. -/
def queued : State :=
  { xs .rv32 0xFFFFFFFF 3 with offers := [⟨0x02C58533, true⟩], mem := [(0x2008, 0x80), (0x2009, 1)] }

theorem witness_StepKeepsInvariant : queued.Inv ∧ ∃ t, step queued = .next t ∧ t.legal = true :=
  ⟨⟨by decide, by decide, fun _ => ⟨by decide +kernel, by decide⟩⟩, of_ran (by decide +kernel)⟩

theorem witness_CanonicalMemoryIsItsReads :
    let m : Memory := [(3, 1), (5, 2)]
    m.wf = true ∧ m.wf = true ∧ ∀ a, m.read a = m.read a := ⟨by decide, by decide, fun _ => rfl⟩

/-- A division by zero with NX already set: both flags are set after it. -/
theorem witness_FlagsOnlyGrow :
    ∃ t, step ({ fs 0xFFFFFFFF3F800000 0xFFFFFFFF00000000 0 with fflags := FpFlag.nx }.withFetchWord 32 0x18C58553) =
      .next t ∧ t.fflags = FpFlag.dz ||| FpFlag.nx := of_ran (by decide +kernel)

/-- VM active: stores to 0x3000 go to 0x8000, loads from there get code 13, and each walk writes a byte. -/
def mapped : State :=
  { xs .rv64 0x3000 0 with
    host := { Config.resetHost with
      vmActive := true
      translations := [⟨0x3000, 16, .error 13 [⟨0x9004, 2⟩], .mapTo 0x8000 [⟨0x9000, 1⟩]⟩] } }

theorem witness_OnlyTheListedElementsChange :
    (isMemory (.mul 10 11 12) = false ∧ destOf (.mul 10 11 12) = .x 10 ∧
      ∃ t, exec (.mul 10 11 12) (xs .rv64 6 7) = .next t ∧ t.legal = true) ∧
    (isMemory (.flw 10 11 0) = true ∧ destOf (.flw 10 11 0) ≠ .none ∧ (xs .rv64 6 7).host.vmActive = false ∧
      ∃ t, exec (.flw 10 11 0) (xs .rv64 6 7) = .next t ∧ t.legal = true) ∧
    (∃ t, exec (.fsw 12 11 0) (xs .rv64 6 7) = .next t ∧ t.legal = true) :=
  ⟨⟨by decide, by decide, of_ran (by decide +kernel)⟩,
    ⟨by decide, by decide, by decide, of_ran (by decide +kernel)⟩, of_ran (by decide +kernel)⟩

/-- The memory clauses: a store behind a translation, a load whose translation fails, and an illegal load. -/
theorem witness_OnlyTheListedElementsChange_memory :
    (translate mapped .store (addressOf mapped 11 8) = .ok 0x8008 { mapped with mem := [(0x9000, 1)] } ∧
      ∃ t, exec (.fsd 12 11 8) mapped = .next t ∧ t.legal = true) ∧
    (translate mapped .load (addressOf mapped 11 0) = .error 13 { mapped with mem := [(0x9004, 2)] } ∧
      ∃ t, exec (.flw 12 11 0) mapped = .next t ∧ t.legal = true) ∧
    ∃ t, exec (.flw 12 11 0) { mapped with misa := 0 } = .next t ∧ t.legal = false :=
  ⟨⟨by decide +kernel, of_ran (by decide +kernel)⟩, ⟨by decide +kernel, of_ran (by decide +kernel)⟩,
    of_ran (by decide +kernel)⟩

/-- The three cases, the first at the top of the RV32 address space. -/
theorem witness_PcAdvancesByRule :
    (∃ t, exec (.mul 10 11 12) { pre .rv32 with pc := 0xFFFFFFFC } = .next t ∧ t.legal = true ∧ t.pc = 0) ∧
    (∃ t, exec (.flw 10 11 4) badLoads = .next t ∧ t.legal = true ∧ t.pc = badLoads.pc) ∧
    (∃ t, exec (.mulw 10 11 12) (pre .rv32) = .next t ∧ t.legal = false) :=
  ⟨of_ran (by decide +kernel), of_ran (by decide +kernel), of_ran (by decide +kernel)⟩

theorem witness_X0IsHardwired :
    destOf (.mul 0 11 12) = .x 0 ∧ ∃ t, exec (.mul 0 11 12) (xs .rv64 6 7) = .next t ∧ t.legal = true :=
  ⟨rfl, of_ran (by decide +kernel)⟩

theorem witness_SingleResultsAreBoxed :
    ((fs 0xFFFFFFFE3F800000 0 0).readF 11).toNat / 2 ^ 32 ≠ 2 ^ 32 - 1 ∧
    ((fs 0xFFFFFFFF3F800000 0 0).readF 11).toNat / 2 ^ 32 = 2 ^ 32 - 1 ∧
    destOf (.faddS 10 11 12 .rne) = .f .S 10 ∧
    ∃ t, exec (.faddS 10 11 12 .rne) (fs 0 0 0) = .next t ∧ t.pc ≠ (fs 0 0 0).pc :=
  ⟨by decide, by decide, rfl, of_ran (by decide +kernel)⟩

theorem witness_IntegerArithmeticRaisesNothing : needsFormat (.remuw 10 11 12) = none := rfl

theorem witness_FpExceptionsNeverTrap :
    needsFormat (.fdivS 10 11 12 .rne) ≠ none ∧ isMemory (.fdivS 10 11 12 .rne) = false ∧
    raisedFlags (.fdivS 10 11 12 .rne) (fs 0xFFFFFFFF3F800000 0xFFFFFFFF00000000 0) = FpFlag.dz ∧
    ∃ t, exec (.fdivS 10 11 12 .rne) (fs 0xFFFFFFFF3F800000 0xFFFFFFFF00000000 0) = .next t ∧ t.legal = true :=
  ⟨by decide, rfl, by decide +kernel, of_ran (by decide +kernel)⟩

theorem witness_WhatInstructionsDoNotRead :
    (needsFormat (.div 10 11 12) = none ∧ ∃ t, exec (.div 10 11 12) (xs .rv64 7 0) = .next t ∧ t.legal = true) ∧
    (Instr.rmField (.faddS 10 11 12 .rup) ≠ some .dyn ∧
      ∃ t, exec (.faddS 10 11 12 .rup) (fs 0 0 0) = .next t ∧ t.legal = true) :=
  ⟨⟨rfl, of_ran (by decide +kernel)⟩, by decide, of_ran (by decide +kernel)⟩

theorem witness_MulWordResult : (xs .rv64 3 5).rv = .rv64 ∧ (xs .rv32 3 5).rv = .rv32 := by decide

theorem witness_WordDivideResults : (xs .rv64 3 0).rv = .rv64 ∧ (xs .rv32 3 0).rv = .rv32 := by decide

theorem witness_MultiplicationLaws :
    (5 : XReg) ≠ 0 ∧ (6 : XReg) ≠ 0 ∧
    (∃ t, exec (.mul 6 11 12) (xs .rv32 0x80000000 0xFFFFFFFF) = .next t ∧ t.legal = true) ∧
    (∃ t, exec (.mulh 5 11 12) (xs .rv32 0x80000000 0xFFFFFFFF) = .next t ∧ t.legal = true) ∧
    (∃ t, exec (.mulhsu 5 11 12) (xs .rv32 0x80000000 0xFFFFFFFF) = .next t ∧ t.legal = true) ∧
    ∃ t, exec (.mulhu 5 11 12) (xs .rv32 0x80000000 0xFFFFFFFF) = .next t ∧ t.legal = true :=
  ⟨by decide, by decide, of_ran (by decide +kernel), of_ran (by decide +kernel), of_ran (by decide +kernel),
    of_ran (by decide +kernel)⟩

/-- The four instructions answer, on the dividend INT_MIN and the given divisor. -/
abbrev divides (d : Word) : Prop :=
  (∃ t, exec (.div 5 11 12) (xs .rv32 0x80000000 d) = .next t ∧ t.legal = true) ∧
  (∃ t, exec (.rem 6 11 12) (xs .rv32 0x80000000 d) = .next t ∧ t.legal = true) ∧
  (∃ t, exec (.divu 5 11 12) (xs .rv32 0x80000000 d) = .next t ∧ t.legal = true) ∧
  ∃ t, exec (.remu 6 11 12) (xs .rv32 0x80000000 d) = .next t ∧ t.legal = true

/-- The dividend INT_MIN with the divisors −1, 0 and 1: each clause's premise is met by one of them. -/
theorem witness_DivisionLaws :
    (divides 0xFFFFFFFF ∧ divides 0 ∧ divides 1) ∧ (5 : XReg) ≠ 0 ∧ (6 : XReg) ≠ 0 ∧
    signedX (xs .rv32 0x80000000 0) 11 = -2147483648 ∧ signedX (xs .rv32 0x80000000 0xFFFFFFFF) 12 = -1 ∧
    signedX (xs .rv32 0x80000000 1) 12 = 1 ∧ unsignedX (xs .rv32 0x80000000 1) 12 = 1 ∧
    unsignedX (xs .rv32 0x80000000 0) 12 = 0 :=
  ⟨⟨⟨of_ran (by decide +kernel), of_ran (by decide +kernel), of_ran (by decide +kernel), of_ran (by decide +kernel)⟩,
    ⟨of_ran (by decide +kernel), of_ran (by decide +kernel), of_ran (by decide +kernel), of_ran (by decide +kernel)⟩,
    ⟨of_ran (by decide +kernel), of_ran (by decide +kernel), of_ran (by decide +kernel), of_ran (by decide +kernel)⟩⟩,
    by decide, by decide, by decide +kernel, by decide +kernel, by decide +kernel, by decide +kernel,
    by decide +kernel⟩

/-- The premises of ArithmeticCompletes, FusedMultiplyAddCompletes, FloatToIntegerCompletes, IntegerToFloatCompletes,
FormatConversionCompletes, MinMaxCompletes, CompareAndClassifyComplete, SignInjectionResults and MovesCopyRawBits. -/
theorem witness_FloatingPointCompletes :
    roundingModeCheck .dyn { pre .rv64 with frm := 4 }.frm = some .rmm ∧ roundingModeCheck .rdn 7 = some .rdn ∧
    HasF { pre .rv64 with misa := 0x20 } ∧ HasFD (pre .rv64) ∧ HasFD (pre .rv32) ∧ (pre .rv64).rv = .rv64 ∧
    (pre .rv32).rv = .rv32 := by
  unfold HasF HasFD
  decide

theorem witness_RoundingIsCorrect :
    (Mag.ratio 1 3).positive ∧ ¬ hasFlag (roundF .D true (.ratio 1 3) .rup).2 FpFlag.of ∧
    (Mag.root 2 1).positive ∧ ¬ hasFlag (roundF .S false (.root 2 1) .rne).2 FpFlag.of := by
  unfold Mag.positive hasFlag
  decide +kernel

/-- The least magnitude that overflows in each mode but the directed ones away from zero: 2^128 toward zero, the midpoint
2^128 − 2^103 to nearest. -/
theorem witness_OverflowIsByTheTable :
    (Mag.ratio (2 ^ 128) 1).positive ∧ overflows .S true .rtz (magReal (.ratio (2 ^ 128) 1)) ∧
    overflows .S false .rdn (magReal (.ratio (2 ^ 128) 1)) ∧ overflows .S true .rup (magReal (.ratio (2 ^ 128) 1)) ∧
    (Mag.ratio (2 ^ 128 - 2 ^ 103) 1).positive ∧
    overflows .S false .rne (magReal (.ratio (2 ^ 128 - 2 ^ 103) 1)) ∧
    overflows .S true .rmm (magReal (.ratio (2 ^ 128 - 2 ^ 103) 1)) ∧
    overflows .S true .rdn (magReal (.ratio (2 ^ 128 - 2 ^ 103) 1)) ∧
    overflows .S false .rup (magReal (.ratio (2 ^ 128 - 2 ^ 103) 1)) := by
  norm_num [Mag.positive, overflows, magReal, maxFReal, Fmt.prec, Fmt.fracBits, Fmt.emax]

/-- The largest single, 2^128 − 2^104, does not overflow; and a value far below 2^−126 does not. -/
theorem witness_UnderflowAndInexactFlags :
    (Mag.ratio (2 ^ 128 - 2 ^ 104) 1).positive ∧ ¬ overflows .S false .rup (magReal (.ratio (2 ^ 128 - 2 ^ 104) 1)) ∧
    ¬ overflows .S false .rne (magReal (.ratio (2 ^ 128 - 2 ^ 104) 1)) ∧
    (Mag.ratio 1 (2 ^ 150)).positive ∧ ¬ overflows .S true .rne (magReal (.ratio 1 (2 ^ 150))) := by
  norm_num [Mag.positive, overflows, magReal, maxFReal, Fmt.prec, Fmt.fracBits, Fmt.emax]

/-- The singles 2.25 and 1.0. -/
theorem witness_ArithmeticRoundsTheExactResult :
    let a : BitVec 32 := 0x40100000
    let b : BitVec 32 := 0x3F800000
    isFinite .S a = true ∧ isFinite .S b = true ∧ valueQ .S a + valueQ .S b ≠ 0 ∧ valueQ .S a - valueQ .S b ≠ 0 ∧
    valueQ .S a * valueQ .S b ≠ 0 ∧ valueQ .S a ≠ 0 ∧ valueQ .S b ≠ 0 ∧ 0 < valueQ .S a := by decide +kernel

/-- (1 + 2^−23)·(1 − 2^−23) − 1 (95_test_vectors.md F12). -/
theorem witness_FusedMultiplyAddRoundsOnce :
    let a : BitVec 32 := 0x3F800001
    let b : BitVec 32 := 0x3F7FFFFE
    let c : BitVec 32 := 0xBF800000
    isFinite .S a = true ∧ isFinite .S b = true ∧ isFinite .S c = true ∧
    (1 : ℚ) * (valueQ .S a * valueQ .S b) + 1 * valueQ .S c ≠ 0 := by decide +kernel

theorem witness_ConversionsToFloatRoundOnce :
    (-1 : Int) ≠ 0 ∧ isFinite .D (0x000FFFFFFFFFFFFF : BitVec 64) = true ∧
    valueQ .D (0x000FFFFFFFFFFFFF : BitVec 64) ≠ 0 ∧ isZero .S (0x80000000 : BitVec 32) = true ∧
    isInf .S (0xFF800000 : BitVec 32) = true ∧ isFinite .S (0x007FFFFF : BitVec 32) = true := by decide +kernel

/-- Each clause at the edge of the W range, on doubles: −2147483649.0, −2147483648.0, 2147483647.0, 2147483648.0. -/
theorem witness_FloatToIntegerRoundsThenClamps :
    isNaN .D (0x7FF8000000000000 : BitVec 64) = true ∧ isInf .D (0xFFF0000000000000 : BitVec 64) = true ∧
    isFinite .D (0xC1E0000000200000 : BitVec 64) = true ∧
    roundedInt .rne (valueQ .D (0xC1E0000000200000 : BitVec 64)) = -2147483649 ∧
    roundedInt .rne (valueQ .D (0xC1E0000000000000 : BitVec 64)) = -2147483648 ∧
    roundedInt .rne (valueQ .D (0x41DFFFFFFFC00000 : BitVec 64)) = 2147483647 ∧
    roundedInt .rne (valueQ .D (0x41E0000000000000 : BitVec 64)) = 2147483648 := by decide +kernel

/-- The premises on infinities: +∞ and −∞ with each other, with 1.0 and with the addend 1.0 or ∞ of either sign. -/
theorem witness_InvalidAndDivideByZero_infinities :
    let inf : BitVec 32 := 0x7F800000
    let minf : BitVec 32 := 0xFF800000
    let one : BitVec 32 := 0x3F800000
    isInf .S inf = true ∧ isInf .S minf = true ∧ isFinite .S one = true ∧ isFinite .S (0 : BitVec 32) = true ∧
    signOf .S inf = false ∧ signOf .S inf = signOf .S inf ∧ signOf .S inf ≠ signOf .S minf ∧
    ¬ (isNaN .S inf = true ∨ isNaN .S one = true) ∧ isZero .S one = false ∧ isZero .S inf = false ∧
    isNaN .S one = false ∧ isInf .S one = false ∧
    (signOf .S inf ^^ signOf .S one ^^ true) = (signOf .S minf ^^ false) := by decide

/-- 1/0, and a NaN result of each family. -/
theorem witness_InvalidAndDivideByZero :
    hasFlag (fpDiv .S 0x3F800000 0 .rne).2 FpFlag.dz ∧ hasFlag (fpSqrt .S 0xBF800000 .rne).2 FpFlag.nv ∧
    isNaN .S (fpMul .S 0x7F800000 0 .rne).1 = true ∧ isNaN .D (0x7FF0000000000001 : BitVec 64) = true := by
  unfold hasFlag
  decide +kernel

theorem witness_NaNResultsAreCanonical :
    isNaN .S (fpAdd .S 0x7FC01234 0 .rne).1 = true ∧ hasFlag (fpAdd .S 0x7F800001 0 .rne).2 FpFlag.nv ∧
    isNaN .D (0x7FF0000000000001 : BitVec 64) = true ∧
    isQNaN .S (0x7FC01234 : BitVec 32) = true ∧ isSNaN .S (0x7FC01234 : BitVec 32) = false ∧
    isSNaN .S (0x3F800000 : BitVec 32) = false ∧ isSNaN .S (0x7F800000 : BitVec 32) = false ∧
    ¬ (isInf .S (0x7F800000 : BitVec 32) = true ∧ isZero .S (0x3F800000 : BitVec 32) = true) ∧
    ¬ isZero .S (0x7F800000 : BitVec 32) = true := by
  unfold hasFlag
  decide +kernel

/-- −0, +0 and 1.0: each clause's premise. -/
theorem witness_SignsOfExactZeros :
    let nz : BitVec 32 := 0x80000000
    let one : BitVec 32 := 0x3F800000
    let minusOne : BitVec 32 := 0xBF800000
    isFinite .S nz = true ∧ isFinite .S one = true ∧ isFinite .S minusOne = true ∧
    valueQ .S nz * valueQ .S one = 0 ∧ valueQ .S nz = 0 ∧ valueQ .S one ≠ 0 ∧
    valueQ .S one + valueQ .S minusOne = 0 ∧ valueQ .S one - valueQ .S one = 0 ∧ (1 : ℚ) * (valueQ .S one * valueQ .S one) + 1 * valueQ .S minusOne = 0 ∧
    (-1 : ℚ) * (valueQ .S nz * valueQ .S one) + (-1) * valueQ .S nz = 0 := by decide +kernel

/-- The premise of each step of the ladder, on an sNaN, a qNaN, −0, +0, 1.0 and +∞. -/
theorem witness_MinMaxLadder :
    let sn : BitVec 32 := 0x7F800001
    let qn : BitVec 32 := 0x7FC00000
    let one : BitVec 32 := 0x3F800000
    let inf : BitVec 32 := 0x7F800000
    isSNaN .S sn = true ∧ isSNaN .S qn = false ∧ isQNaN .S qn = true ∧ isNaN .S one = false ∧
    isZero .S (0x80000000 : BitVec 32) = true ∧ isZero .S (0 : BitVec 32) = true ∧
    signOf .S (0x80000000 : BitVec 32) ≠ signOf .S (0 : BitVec 32) ∧
    isNaN .S inf = false ∧ ¬ (isZero .S one = true ∧ isZero .S inf = true) ∧
    below .S one inf ∧ ¬ below .S inf one ∧ ¬ below .S one one := by
  unfold below
  decide +kernel

theorem witness_ComparisonsAreOnValues :
    isNaN .S (0x7FC00000 : BitVec 32) = true ∧ ¬ isSNaN .S (0x7FC00000 : BitVec 32) = true ∧
    isSNaN .S (0x7F800001 : BitVec 32) = true ∧ ¬ isNaN .S (0x7F800000 : BitVec 32) = true := by decide

/-- RV64 with x11 = 0x3000 and the given host. -/
def onHost (h : HostEnv) : State := { xs .rv64 0x3000 0 with host := h }

/-- A host whose loads and stores at 0x3000 never return. -/
def deadHost : HostEnv := { Config.resetHost with regions := [⟨0x3000, 16, .noReturn, .noReturn⟩] }

/-- A host with VM active that maps 16 bytes from 0x3000 to 0x8000, writing one byte. -/
def mappedHost (load store : XlatReply) : HostEnv :=
  { Config.resetHost with vmActive := true, translations := [⟨0x100, 4, .noReturn, .noReturn⟩, ⟨0x3000, 16, load, store⟩] }

theorem witness_LoadsComplete :
    let s := onHost (mappedHost (.mapTo 0x8000 [⟨0x9000, 1⟩]) .noReturn)
    translate s .load (addressOf s 11 8) = .ok 0x8008 { s with mem := [(0x9000, 1)] } ∧
    HasF s ∧ HasFD s ∧ memReply { s with mem := [(0x9000, 1)] } .load .word 0x8008 = .perform ∧
    memReply { s with mem := [(0x9000, 1)] } .load .double 0x8008 = .perform := by
  unfold HasF HasFD
  decide +kernel

theorem witness_StoresComplete :
    let s := onHost (mappedHost .noReturn (.mapTo 0x8000 [⟨0x9000, 1⟩]))
    s.mem.wf = true ∧ translate s .store (addressOf s 11 8) = .ok 0x8008 { s with mem := [(0x9000, 1)] } ∧
    HasF s ∧ HasFD s ∧ memReply { s with mem := [(0x9000, 1)] } .store .word 0x8008 = .perform ∧
    memReply { s with mem := [(0x9000, 1)] } .store .double 0x8008 = .perform := by
  unfold HasF HasFD
  decide +kernel

/-- A translation error for each kind, and a memory error of each width after a translation. -/
theorem witness_MemoryErrorsAreRecorded :
    let s := onHost (mappedHost (.error 13 [⟨0x9000, 1⟩]) (.error 15 []))
    let m := onHost { Config.resetHost with regions := [⟨0x3000, 16, .error none, .error (some 7)⟩] }
    HasF s ∧ HasFD s ∧ HasF m ∧ HasFD m ∧
    translate s .load (addressOf s 11 0) = .error 13 { s with mem := [(0x9000, 1)] } ∧
    translate s .store (addressOf s 11 0) = .error 15 s ∧
    translate m .load (addressOf m 11 0) = .ok 0x3000 m ∧ translate m .store (addressOf m 11 0) = .ok 0x3000 m ∧
    memRead m m.host.loadAccessFault .word 0x3000 = .error 5 m ∧
    memRead m m.host.loadAccessFault .double 0x3000 = .error 5 m ∧
    memWrite m .word 0x3000 (BitVec.ofNat 64 ((m.readF 12).toNat % 2 ^ 32)) = .error 7 m ∧
    memWrite m .double 0x3000 (m.readF 12) = .error 7 m := by
  unfold HasF HasFD
  decide +kernel

/-- VM inactive; the last byte a row covers and the first it does not; each reply. -/
theorem witness_TranslationRule :
    let s (load store : XlatReply) := onHost (mappedHost load store)
    let t := s (.mapTo 0x8000 [⟨0x9000, 1⟩]) (.error 15 [])
    (pre .rv64).host.vmActive = false ∧ t.host.vmActive = true ∧
    (∀ r ∈ t.host.translations, r.size ≤ ((0x3010 : Word) - r.base).toNat) ∧
    t.host.translations = [⟨0x100, 4, .noReturn, .noReturn⟩] ++
      ⟨0x3000, 16, .mapTo 0x8000 [⟨0x9000, 1⟩], .error 15 []⟩ :: [] ∧
    (4 ≤ ((0x300F : Word) - 0x100).toNat ∧ ((0x300F : Word) - 0x3000).toNat < 16) ∧
    translationReply ⟨0x3000, 16, .mapTo 0x8000 [⟨0x9000, 1⟩], .error 15 []⟩ .load = .mapTo 0x8000 [⟨0x9000, 1⟩] ∧
    translationReply ⟨0x3000, 16, .mapTo 0x8000 [⟨0x9000, 1⟩], .error 15 []⟩ .store = .error 15 [] ∧
    translationReply ⟨0x3000, 16, .noReturn, .error 15 []⟩ .load = .noReturn := by decide +kernel

/-- Each reply, at the last address that still touches the region and at the first that does not. -/
theorem witness_MemoryCallsByReply :
    let s := onHost { Config.resetHost with regions := [⟨0x3000, 16, .error none, .error (some 7)⟩] }
    let t := onHost { Config.resetHost with regions := [⟨0x3000, 16, .error (some 9), .error none⟩] }
    s.mem.wf = true ∧
    memReply s .load .word 0x3010 = .perform ∧ memReply s .store .double 0x2FF8 = .perform ∧
    memReply s .load .word 0x300F = .error none ∧ memReply s .store .double 0x2FF9 = .error (some 7) ∧
    memReply t .load .word 0x3000 = .error (some 9) ∧ memReply t .store .word 0x3000 = .error none := by
  decide +kernel

/-- The reply itself: a misaligned access, and two regions of which the second is touched by its last byte only. -/
theorem witness_MemoryCallsByReply_regions :
    let first : Region := ⟨0x1000, 4, .noReturn, .noReturn⟩
    let second : Region := ⟨0x3000, 16, .error none, .error (some 7)⟩
    let s := onHost { Config.resetHost with regions := [first, second], misaligned := .error 4 6 }
    s.host.misaligned = .error 4 6 ∧ (0x3001 : Word).toNat % MemWidth.word.bytes ≠ 0 ∧
    (0x300C : Word).toNat % MemWidth.word.bytes = 0 ∧ s.host.regions = [first] ++ second :: [] ∧
    (∀ q ∈ [first], ¬ Touches q 0x300C 4) ∧ Touches second 0x300C 4 ∧ (∀ r ∈ s.host.regions, ¬ Touches r 0x3010 4) ∧
    Touches second 0x2FFD 4 ∧ ¬ Touches second 0x2FFC 4 := by
  simp only [← touchesRegion_iff]
  decide +kernel

theorem witness_NeverReturningHostCallsFault :
    let s := onHost (mappedHost .noReturn .noReturn)
    let d := onHost deadHost
    HasFD s ∧ HasFD d ∧
    translate s .load (addressOf s 11 0) = .noReturn ∧ translate s .store (addressOf s 11 0) = .noReturn ∧
    translate d .load (addressOf d 11 0) = .ok 0x3000 d ∧ translate d .store (addressOf d 11 0) = .ok 0x3000 d ∧
    memReply d .load .word 0x3000 = .noReturn ∧ memReply d .load .double 0x3000 = .noReturn ∧
    memReply d .store .word 0x3000 = .noReturn ∧ memReply d .store .double 0x3000 = .noReturn := by
  unfold HasFD
  decide +kernel

/-- The second address four above the first, across the wrap of the address space. -/
theorem witness_StoreThenLoadReadsBack :
    let s := xs .rv64 0xFFFFFFFFFFFFFFFC 0
    HasFD s ∧ s.host.vmActive = false ∧ s.mem.wf = true ∧ s.host.regions = [] ∧ s.host.misaligned = .perform ∧
    addressOf s 11 4 = addressOf s 11 0 + 4 := by
  unfold HasFD
  decide +kernel

end Sys2Proof.Tests
end

namespace Sys2Proof.Machine

/-! ### Answers with `legal = false` (00_scope.md rule R5) -/

theorem transact_of_decode_ok {w : InstWord} {i : Instr} (h : decode w = .ok i) (s : State) :
    transact w s = exec i s := by
  rw [transact, h]

theorem transact_of_decode_error {w : InstWord} {e} (h : decode w = .error e) (s : State) :
    transact w s = .next { s with legal := false } := by
  rw [transact, h, illegal_eq]

/-- Every effect but `illegal` sets `legal`. -/
theorem Effect.eq_of_legal_false {i : Instr} {s t : State} (h : Effect i s t) (hl : t.legal = false) :
    t = { s with legal := false } := by
  cases h with
  | illegal => rfl
  | writesX | writesF | loads | stores => rw [State.retire_legal] at hl; contradiction
  | traps => contradiction

theorem exec_eq_of_legal_false {i : Instr} {s t : State} (h : exec i s = .next t) (hl : t.legal = false) :
    t = { s with legal := false } :=
  (exec_effect h).eq_of_legal_false hl

theorem transact_eq_of_legal_false {w : InstWord} {s t : State} (h : transact w s = .next t)
    (hl : t.legal = false) : t = { s with legal := false } := by
  cases hd : decode w with
  | ok i =>
    rw [transact_of_decode_ok hd] at h
    exact exec_eq_of_legal_false h hl
  | error e =>
    rw [transact_of_decode_error hd] at h
    cases h; rfl

/-- Settles O8: the only effect of a meaning that leaves `legal` false is the illegal outcome, and a word that decodes
to no instruction has that outcome. -/
theorem illegalReturnsInputState : Obligations.IllegalReturnsInputState :=
  ⟨fun _ _ _ => exec_eq_of_legal_false, fun _ _ _ => transact_eq_of_legal_false⟩

end Sys2Proof.Machine

namespace Sys2Proof.Machine

/-! ### NaN boxing (10_state.md rule R25, 42_fp_numerics.md rules R145, R146) -/

theorem toNat_extract_high32 (r : Word) : (r.extractLsb' 32 32).toNat = r.toNat / 2 ^ 32 := by
  rw [BitVec.extractLsb'_toNat, Nat.shiftRight_eq_div_pow]
  exact Nat.mod_eq_of_lt (Nat.div_lt_of_lt_mul r.isLt)

theorem extract_high32_eq_ones_iff (r : Word) :
    r.extractLsb' 32 32 = 0xFFFFFFFF#32 ↔ r.toNat / 2 ^ 32 = 2 ^ 32 - 1 := by
  rw [← BitVec.toNat_inj, toNat_extract_high32]
  rfl

theorem unboxS_of_boxed {r : Word} (h : r.toNat / 2 ^ 32 = 2 ^ 32 - 1) : unboxS r = low32 r :=
  if_pos ((extract_high32_eq_ones_iff r).2 h)

theorem unboxS_of_not_boxed {r : Word} (h : r.toNat / 2 ^ 32 ≠ 2 ^ 32 - 1) : unboxS r = 0x7FC00000#32 :=
  if_neg (mt (extract_high32_eq_ones_iff r).1 h)

theorem toNat_low32 (r : Word) : (low32 r).toNat = r.toNat % 2 ^ 32 :=
  BitVec.toNat_setWidth 32 r

theorem boxS_toNat (v : BitVec 32) : (boxS v).toNat = (2 ^ 32 - 1) * 2 ^ 32 + v.toNat := by
  rw [boxS, BitVec.toNat_append, ← Nat.shiftLeft_add_eq_or_of_lt v.isLt, Nat.shiftLeft_eq]
  rfl

theorem boxS_boxed (v : BitVec 32) : (boxS v).toNat / 2 ^ 32 = 2 ^ 32 - 1 := by
  have hv := v.isLt
  rw [boxS_toNat]
  omega

@[simp] theorem State.readF_writeFp_S_same (s : State) (r : FReg) (v : BitVec Fmt.S.width) :
    (s.writeFp .S r v).readF r = boxS v :=
  s.readF_writeF_same r (boxS v)

/-! ### An FPR destination of a completed instruction -/

/-- Of the effects of an instruction with an FPR destination, an illegal word and a trap leave the PC; the other two
write a result of the destination's format. -/
theorem Effect.readF_of_pc_moved {i : Instr} {s t : State} {F : Fmt} {rd : FReg} (h : Effect i s t)
    (hd : destOf i = .f F rd) (hpc : t.pc ≠ s.pc) :
    ∃ (s' : State) (v : BitVec F.width), t.readF rd = (s'.writeFp F rd v).readF rd := by
  cases h with
  | illegal => exact absurd rfl hpc
  | traps => exact absurd rfl hpc
  | writesX _ _ _ dest => cases hd.symm.trans dest
  | stores _ _ _ _ dest => cases hd.symm.trans dest
  | writesF _ _ v _ dest =>
    cases hd.symm.trans dest
    exact ⟨s, v, rfl⟩
  | loads _ _ v ts dest =>
    cases hd.symm.trans dest
    exact ⟨touched s ts, v, rfl⟩

/-- Settles O19: reading a single unboxes it, and each effect that moves the PC past an instruction with a
single-precision destination writes a boxed value there. -/
theorem singleResultsAreBoxed : Obligations.SingleResultsAreBoxed := by
  refine ⟨fun s r => unboxS_of_not_boxed, fun s r h => ?_, fun i s t rd hd hexec hpc => ?_⟩
  · calc (s.readFp .S r).toNat
      _ = (low32 (s.readF r)).toNat := congrArg BitVec.toNat (unboxS_of_boxed h)
      _ = (s.readF r).toNat % 2 ^ 32 := toNat_low32 _
  · obtain ⟨s', v, hread⟩ := (exec_effect hexec).readF_of_pc_moved hd hpc
    rw [hread, State.readF_writeFp_S_same]
    exact boxS_boxed v

end Sys2Proof.Machine

namespace Sys2Proof.Machine

/-! ### A result in a general register (10_state.md rules R21, R31; 40_m_multiply.md rule R100) -/

/-- What the finish helpers of a general register leave: the value at XLEN, the flags, the next PC, and nothing else. -/
theorem wroteX_retire (s : State) (rd : XReg) (v : Word) (fl : FpFlags) :
    WroteX s ((s.writeX rd v).accrue fl).retire rd (wrapX s.rv v) fl where
  legal := rfl
  pc := by
    have hpc : ((s.writeX rd v).accrue fl).readPc = s.readPc := by simp [State.readPc]
    rw [PcAdvanced, State.readPc_retire, State.npc_toNat, hpc]
    simp
  dest hrd := s.readX_writeX_same hrd v
  zero := rfl
  otherX _ hr := s.readX_writeX_other hr v
  f := s.readF_writeX rd v
  fflags := by simp
  memory _ := by simp
  rest := by constructor <;> simp

/-- A meaning that ends in `finishX` completes and raises no flag. -/
theorem completes_of_finishX {i : Instr} {s : State} {rd : XReg} {v : Word} (h : exec i s = finishX s rd v) :
    Completes i s fun t => WroteX s t rd (wrapX s.rv v) 0 := by
  have hw := wroteX_retire s rd v FpFlag.none
  rw [accrue_none] at hw
  exact ⟨_, h, hw⟩

/-! ### Operands and results as integers (00_scope.md rules R12, R13) -/

/-- x[r] as a word of XLEN bits. -/
def State.xlenWord (s : State) (r : XReg) : BitVec s.rv.xlen := (s.readX r).setWidth s.rv.xlen

theorem xlen_pos (rv : Rv) : 0 < rv.xlen := by cases rv <;> decide

theorem xlen_le (rv : Rv) : rv.xlen ≤ 64 := by cases rv <;> decide

theorem unsignedX_eq_toNat (s : State) (r : XReg) : unsignedX s r = (s.xlenWord r).toNat := by
  rw [State.xlenWord, BitVec.toNat_setWidth, Nat.mod_eq_of_lt (s.readX_lt r), unsignedX]

theorem unsigned32_eq_toNat (s : State) (r : XReg) : unsigned32 s r = (low32 (s.readX r)).toNat := by
  rw [toNat_low32, unsigned32]

/-- The two's complement value of the n low bits: their unsigned value, less 2^n where the top one is set. -/
theorem toInt_setWidth_eq_sub (x : Word) {n : Nat} (hn : 0 < n) :
    (x.setWidth n).toInt = (x.setWidth n).toNat - if x.getLsbD (n - 1) then ((2 ^ n : Nat) : Int) else 0 := by
  have hmsb : (x.setWidth n).msb = x.getLsbD (n - 1) := by
    simp [BitVec.msb_eq_getLsbD_last, hn]
  rw [BitVec.toInt_eq_msb_cond, hmsb]
  split <;> simp

theorem signedX_eq_toInt (s : State) (r : XReg) : signedX s r = (s.xlenWord r).toInt := by
  rw [signedX, unsignedX_eq_toNat, State.xlenWord, toInt_setWidth_eq_sub _ (xlen_pos _)]

theorem signed32_eq_toInt (s : State) (r : XReg) : signed32 s r = (low32 (s.readX r)).toInt := by
  rw [signed32, unsigned32_eq_toNat, low32, toInt_setWidth_eq_sub _ (by decide)]

theorem wordN_eq_ofInt (n : Nat) (i : Int) : wordN n i = (BitVec.ofInt n i).setWidth 64 := by
  apply BitVec.eq_of_toNat_eq
  rw [wordN, ← BitVec.toNat_ofInt, BitVec.toNat_ofNat, BitVec.toNat_setWidth]

theorem wordX_eq_ofInt (s : State) (i : Int) : wordX s i = (BitVec.ofInt s.rv.xlen i).setWidth 64 :=
  wordN_eq_ofInt s.rv.xlen i

theorem sextWord_eq_ofInt (i : Int) : sextWord i = sext32 (BitVec.ofInt 32 i) := by
  apply BitVec.eq_of_toNat_eq
  have hlt := (BitVec.ofInt 32 i).isLt
  rw [sextWord, ← BitVec.toNat_ofInt, sext32, BitVec.toNat_signExtend, BitVec.toNat_setWidth, BitVec.msb_eq_decide,
    BitVec.toNat_ofNat]
  simp only [decide_eq_true_eq]
  split <;> omega

/-! ### The OP and OP_32 forms (40_m_multiply.md rules R100, R101) -/

theorem atXlen_eq_setWidth (rv : Rv) (op : (n : Nat) → BitVec n → BitVec n → BitVec n) (a b : Word) :
    atXlen rv op a b = (op rv.xlen (a.setWidth rv.xlen) (b.setWidth rv.xlen)).setWidth 64 := by
  cases rv with
  | rv32 => rfl
  | rv64 => simp only [atXlen, BitVec.setWidth_eq]

theorem wrapX_setWidth (rv : Rv) (v : BitVec rv.xlen) : wrapX rv (v.setWidth 64) = v.setWidth 64 := by
  apply wrapX_of_lt
  rw [BitVec.toNat_setWidth_of_le (xlen_le rv)]
  exact v.isLt

/-- An OP form completes with the operation's result on the operands at XLEN. -/
theorem completes_of_opX {i : Instr} {s : State} {op : (n : Nat) → BitVec n → BitVec n → BitVec n}
    {rd rs1 rs2 : XReg} (h : exec i s = opX op rd rs1 rs2 s) :
    Completes i s fun t => WroteX s t rd ((op s.rv.xlen (s.xlenWord rs1) (s.xlenWord rs2)).setWidth 64) 0 := by
  have hc := completes_of_finishX h
  rwa [atXlen_eq_setWidth, wrapX_setWidth] at hc

/-- An OP_32 form on RV64 completes with the operation's result on the low words, sign-extended. -/
theorem completes_of_op32 {i : Instr} {s : State} {op : (n : Nat) → BitVec n → BitVec n → BitVec n}
    {rd rs1 rs2 : XReg} (hrv : s.rv = .rv64) (h : exec i s = op32 op rd rs1 rs2 s) :
    Completes i s fun t => WroteX s t rd (sext32 (op 32 (low32 (s.readX rs1)) (low32 (s.readX rs2)))) 0 := by
  have hc := completes_of_finishX (h.trans (requireRv64_true hrv _))
  rwa [hrv, wrapX_rv64] at hc

/-- An OP_32 form is illegal on RV32. -/
theorem runsIllegal_of_op32 {i : Instr} {s : State} {op : (n : Nat) → BitVec n → BitVec n → BitVec n}
    {rd rs1 rs2 : XReg} (hrv : s.rv = .rv32) (h : exec i s = op32 op rd rs1 rs2 s) : RunsIllegal i s :=
  h.trans (requireRv64_false (by simp [hrv]) _)

/-! ### MUL and MULW -/

theorem wordX_mul_signedX (s : State) (rs1 rs2 : XReg) :
    wordX s (signedX s rs1 * signedX s rs2) = (mulLow s.rv.xlen (s.xlenWord rs1) (s.xlenWord rs2)).setWidth 64 := by
  rw [wordX_eq_ofInt, signedX_eq_toInt, signedX_eq_toInt, mulLow]

theorem sextWord_mul_signed32 (s : State) (rs1 rs2 : XReg) :
    sextWord (signed32 s rs1 * signed32 s rs2) =
      sext32 (mulLow 32 (low32 (s.readX rs1)) (low32 (s.readX rs2))) := by
  rw [sextWord_eq_ofInt, signed32_eq_toInt, signed32_eq_toInt, mulLow]

/-- Settles O23: MUL is the OP form of `mulLow`, the low half of the signed product at XLEN. -/
theorem mulResult : Obligations.MulResult := by
  intro rd rs1 rs2 s
  rw [wordX_mul_signedX]
  exact ⟨Laws.EncodesInRow.mul rd rs1 rs2, completes_of_opX rfl⟩

/-- Settles O25: MULW is the OP_32 form of `mulLow`. -/
theorem mulWordResult : Obligations.MulWordResult := by
  intro rd rs1 rs2 s
  rw [sextWord_mul_signed32]
  exact ⟨Laws.EncodesInRow.mulw rd rs1 rs2, fun hrv => completes_of_op32 hrv rfl,
    fun hrv => runsIllegal_of_op32 hrv rfl⟩

end Sys2Proof.Machine

namespace Sys2Proof.Machine

/-! ### DIV and REM as one integer at XLEN (41_m_divide.md rules R120, R122) -/

theorem setWidth_xlenWord (s : State) (r : XReg) : (s.xlenWord r).setWidth 64 = s.readX r := by
  apply BitVec.eq_of_toNat_eq
  rw [BitVec.toNat_setWidth_of_le (xlen_le s.rv), State.xlenWord, BitVec.toNat_setWidth,
    Nat.mod_eq_of_lt (s.readX_lt r)]

theorem wordX_signedX (s : State) (r : XReg) : wordX s (signedX s r) = s.readX r := by
  rw [wordX_eq_ofInt, signedX_eq_toInt, BitVec.ofInt_toInt, setWidth_xlenWord]

theorem wordX_zero (s : State) : wordX s 0 = 0 := by
  simp [wordX_eq_ofInt]

/-- All ones (rule R120) is −1 and 2^n − 1 alike: they differ by 2^n. -/
theorem ofInt_neg_one_eq (n : Nat) : BitVec.ofInt n (-1) = BitVec.ofInt n (2 ^ n - 1) := by
  apply BitVec.eq_of_toNat_eq
  have hmod : (2 ^ n - 1 : Int) % (2 ^ n : Nat) = -1 % (2 ^ n : Nat) := by
    rw [sub_eq_neg_add]
    exact_mod_cast Int.add_emod_right (-1) (2 ^ n)
  rw [BitVec.toNat_ofInt, BitVec.toNat_ofInt, hmod]

/-- The quotient with its conventions for a zero divisor and for the overflow, all three as integers. -/
theorem divSigned_eq_ofInt (n : Nat) (a b : BitVec n) :
    divSigned n a b = BitVec.ofInt n
      (if b.toInt = 0 then 2 ^ n - 1
        else if a.toInt = -2 ^ (n - 1) ∧ b.toInt = -1 then -2 ^ (n - 1) else a.toInt.tdiv b.toInt) := by
  unfold divSigned
  push_cast
  split_ifs with hzero hoverflow
  · exact ofInt_neg_one_eq n
  · rw [← hoverflow.1, BitVec.ofInt_toInt]
  · rfl

/-- The remainder with its conventions for a zero divisor and for the overflow, all three as integers. -/
theorem remSigned_eq_ofInt (n : Nat) (a b : BitVec n) :
    remSigned n a b = BitVec.ofInt n
      (if b.toInt = 0 then a.toInt
        else if a.toInt = -2 ^ (n - 1) ∧ b.toInt = -1 then 0 else a.toInt - b.toInt * a.toInt.tdiv b.toInt) := by
  unfold remSigned
  push_cast
  split_ifs with hzero hoverflow
  · exact BitVec.ofInt_toInt.symm
  · simp
  · rfl

/-- Settles O26: DIV and REM are the OP forms of `divSigned` and `remSigned`, whose integers at XLEN are the rules'. -/
theorem signedDivideResults : Obligations.SignedDivideResults := by
  intro rd rs1 rs2 s
  have hdiv : Completes (.div rd rs1 rs2) s _ := completes_of_opX (op := divSigned) rfl
  have hrem : Completes (.rem rd rs1 rs2) s _ := completes_of_opX (op := remSigned) rfl
  rw [divSigned_eq_ofInt, ← signedX_eq_toInt, ← signedX_eq_toInt, ← wordX_eq_ofInt] at hdiv
  rw [remSigned_eq_ofInt, ← signedX_eq_toInt, ← signedX_eq_toInt, ← wordX_eq_ofInt, apply_ite (wordX s),
    apply_ite (wordX s), wordX_signedX, wordX_zero] at hrem
  exact ⟨Laws.EncodesInRow.div rd rs1 rs2, Laws.EncodesInRow.rem rd rs1 rs2, hdiv, hrem⟩

end Sys2Proof.Machine

namespace Sys2Proof.Machine

/-! ### Unboxing a boxed value (42_fp_numerics.md rules R145, R146) -/

theorem low32_eq_ofNat (r : Word) : low32 r = BitVec.ofNat 32 r.toNat :=
  (BitVec.ofNat_toNat 32 r).symm

theorem unboxS_boxS (v : BitVec 32) : unboxS (boxS v) = v := by
  rw [unboxS_of_boxed (boxS_boxed v)]
  apply BitVec.eq_of_toNat_eq
  rw [toNat_low32, boxS_toNat, Nat.mul_add_mod_self_right, Nat.mod_eq_of_lt v.isLt]

/-- Settles O53: the two cases of `unboxS` by the upper half as a number, and the upper half of a boxed value is all
ones. -/
theorem boxAndUnbox : Obligations.BoxAndUnbox := by
  refine ⟨fun r => ?_, boxS_toNat, unboxS_boxS⟩
  split_ifs with hbox
  · rw [unboxS_of_boxed hbox, low32_eq_ofNat]
  · exact unboxS_of_not_boxed hbox

end Sys2Proof.Machine

namespace Sys2Proof.Machine

/-! ### A result in a floating-point register (10_state.md rule R31, 42_fp_numerics.md rules R146, R147) -/

theorem boxS_eq_fprValue (v : BitVec 32) : boxS v = fprValue .S v := by
  have hlt := (boxS v).isLt
  rw [boxS_toNat] at hlt
  apply BitVec.eq_of_toNat_eq
  rw [boxS_toNat]
  exact (Nat.mod_eq_of_lt hlt).symm

theorem State.readF_writeFp_same (s : State) (F : Fmt) (r : FReg) (v : BitVec F.width) :
    (s.writeFp F r v).readF r = fprValue F v := by
  cases F with
  | S => rw [State.readF_writeFp_S_same, boxS_eq_fprValue]
  | D => exact s.readF_writeF_same r v

/-- What the finish helpers of a floating-point register leave: the value, boxed for S, the flags, the next PC, and
nothing else. -/
theorem wroteF_retire (s : State) (F : Fmt) (rd : FReg) (v : BitVec F.width) (fl : FpFlags) :
    WroteF s ((s.writeFp F rd v).accrue fl).retire rd (fprValue F v) fl where
  legal := rfl
  pc := by
    have hpc : ((s.writeFp F rd v).accrue fl).readPc = s.readPc := by simp [State.readPc]
    rw [PcAdvanced, State.readPc_retire, State.npc_toNat, hpc]
    simp
  dest := s.readF_writeFp_same F rd v
  otherF _ hr := s.readF_writeFp_other hr v
  x := s.readX_writeFp F rd v
  fflags := by simp
  memory _ := by simp
  rest := by constructor <;> simp

/-! ### The integer an FCVT reads (44_fp_convert.md rule R211) -/

theorem intOfWord_w_readX (s : State) (r : XReg) : intOfWord .w (s.readX r) = signed32 s r :=
  (signed32_eq_toInt s r).symm

theorem intOfWord_wu_readX (s : State) (r : XReg) : intOfWord .wu (s.readX r) = unsigned32 s r :=
  (unsigned32_eq_toNat s r).symm

theorem intOfWord_l_readX {s : State} (hrv : s.rv = .rv64) (r : XReg) : intOfWord .l (s.readX r) = signedX s r := by
  rw [signedX_eq_toInt, State.xlenWord, hrv, BitVec.setWidth_eq, intOfWord]

theorem intOfWord_lu_readX (s : State) (r : XReg) : intOfWord .lu (s.readX r) = unsignedX s r := rfl

/-! ### The flags an answer raises (42_fp_numerics.md rules R159, R161) -/

/-- The answer is the illegal outcome, or a completed write of one register that raises exactly `fl`. -/
inductive AnswersRaising (s : State) (fl : FpFlags) : Result → Prop
  | illegal : AnswersRaising s fl (illegal s)
  | writesX {t : State} {rd : XReg} {v : Word} (h : WroteX s t rd v fl) : AnswersRaising s fl (.next t)
  | writesF {t : State} {rd : FReg} {v : Word} (h : WroteF s t rd v fl) : AnswersRaising s fl (.next t)

section Answers
variable {s : State} {fl : FpFlags}

theorem answersRaising_finishXFlags (rd : XReg) (v : Word) : AnswersRaising s fl (finishXFlags s rd v fl) :=
  .writesX (wroteX_retire s rd v fl)

theorem answersRaising_finishFFlags (F : Fmt) (rd : FReg) (r : BitVec F.width × FpFlags) :
    AnswersRaising s r.2 (finishFFlags s F rd r) :=
  .writesF (wroteF_retire s F rd r.1 r.2)

theorem answersRaising_finishX (rd : XReg) (v : Word) : AnswersRaising s FpFlag.none (finishX s rd v) := by
  have hw := wroteX_retire s rd v FpFlag.none
  rw [accrue_none] at hw
  exact .writesX hw

theorem answersRaising_finishF (F : Fmt) (rd : FReg) (v : BitVec F.width) :
    AnswersRaising s FpFlag.none (finishF s F rd v) := by
  have hw := wroteF_retire s F rd v FpFlag.none
  rw [accrue_none] at hw
  exact .writesF hw

theorem AnswersRaising.requireFormat {F : Fmt} {k : Result} (hk : AnswersRaising s fl k) :
    AnswersRaising s fl (requireFormat s F k) := by
  cases hF : s.hasFormat F with
  | true => rwa [requireFormat_true hF]
  | false => rw [requireFormat_false hF]; exact .illegal

theorem AnswersRaising.requireRv64 {k : Result} (hk : s.rv = .rv64 → AnswersRaising s fl k) :
    AnswersRaising s fl (requireRv64 s k) := by
  by_cases hrv : s.rv = .rv64
  · rw [requireRv64_true hrv]; exact hk hrv
  · rw [requireRv64_false hrv]; exact .illegal

/-- Under a legal mode the flags are those of that mode, which is what `raisedIn` says. -/
theorem AnswersRaising.requireFp {F : Fmt} {rm : Rm} {flags : Mode → FpFlags} {k : Mode → Result}
    (hk : ∀ mode, AnswersRaising s (flags mode) (k mode)) :
    AnswersRaising s (raisedIn s rm flags) (requireFp s F rm k) := by
  apply AnswersRaising.requireFormat
  cases hm : roundingModeCheck rm s.frm with
  | some mode => rw [requireMode_some hm, raisedIn, hm]; exact hk mode
  | none => rw [requireMode_none hm]; exact .illegal

end Answers

/-! ### The flags of each form of FP instruction -/

section Forms
variable {s : State}

theorem fpBinary_raises (F : Fmt) (op : BitVec F.width → BitVec F.width → Mode → FpResult F) (rd rs1 rs2 : FReg)
    (rm : Rm) :
    AnswersRaising s (raisedIn s rm fun mode => (op (s.readFp F rs1) (s.readFp F rs2) mode).2)
      (fpBinary F op rd rs1 rs2 rm s) :=
  .requireFp fun _ => answersRaising_finishFFlags F rd _

theorem fpRoot_raises (F : Fmt) (rd rs1 : FReg) (rm : Rm) :
    AnswersRaising s (raisedIn s rm fun mode => (fpSqrt F (s.readFp F rs1) mode).2) (fpRoot F rd rs1 rm s) :=
  .requireFp fun _ => answersRaising_finishFFlags F rd _

theorem fpFused_raises (F : Fmt) (np nc : Bool) (rd rs1 rs2 rs3 : FReg) (rm : Rm) :
    AnswersRaising s
      (raisedIn s rm fun mode => (fpFma F (s.readFp F rs1) (s.readFp F rs2) (s.readFp F rs3) np nc mode).2)
      (fpFused F np nc rd rs1 rs2 rs3 rm s) :=
  .requireFp fun _ => answersRaising_finishFFlags F rd _

theorem fcvtToInt_raises (F : Fmt) (k : IntKind) (rd : XReg) (rs1 : FReg) (rm : Rm) :
    AnswersRaising s (raisedIn s rm fun mode => (fpToInt F k (s.readFp F rs1) mode).2) (fcvtToInt F k rd rs1 rm s) :=
  .requireFp fun _ => answersRaising_finishXFlags rd _

theorem fcvtFromInt_raises (F : Fmt) (k : IntKind) (rd : FReg) {rs1 : XReg} (rm : Rm) {n : Int}
    (hn : intOfWord k (s.readX rs1) = n) :
    AnswersRaising s (raisedIn s rm fun mode => (intToFp F n mode).2) (fcvtFromInt F k rd rs1 rm s) := by
  subst hn
  exact .requireFp fun _ => answersRaising_finishFFlags F rd _

theorem fcvtFormats_raises (Fs Fd : Fmt) (rd rs1 : FReg) (rm : Rm) :
    AnswersRaising s (raisedIn s rm fun mode => (fpToFp Fs Fd (s.readFp Fs rs1) mode).2)
      (fcvtFormats Fs Fd rd rs1 rm s) :=
  .requireFp fun _ => answersRaising_finishFFlags Fd rd _

theorem fminmax_raises (F : Fmt) (isMax : Bool) (rd rs1 rs2 : FReg) :
    AnswersRaising s (fpMinMax F isMax (s.readFp F rs1) (s.readFp F rs2)).2 (fminmax F isMax rd rs1 rs2 s) :=
  .requireFormat (answersRaising_finishFFlags F rd _)

theorem fcmp_raises (F : Fmt) (op : CmpOp) (rd : XReg) (rs1 rs2 : FReg) :
    AnswersRaising s (fpCompare F op (s.readFp F rs1) (s.readFp F rs2)).2 (fcmp F op rd rs1 rs2 s) :=
  .requireFormat (answersRaising_finishXFlags rd _)

theorem fclass_raises_none (F : Fmt) (rd : XReg) (rs1 : FReg) :
    AnswersRaising s FpFlag.none (fclass F rd rs1 s) :=
  .requireFormat (answersRaising_finishX rd _)

theorem fsgnj_raises_none (F : Fmt) (kind : SgnjKind) (rd rs1 rs2 : FReg) :
    AnswersRaising s FpFlag.none (fsgnj F kind rd rs1 rs2 s) :=
  .requireFormat (answersRaising_finishF F rd _)

end Forms

/-- Every instruction that accesses no memory is illegal or raises the flags of its operation, an M instruction none. -/
theorem exec_raises {i : Instr} (s : State) (hmem : isMemory i = false) :
    AnswersRaising s (raisedFlags i s) (exec i s) := by
  cases i with
  | mul | mulh | mulhsu | mulhu | div | divu | rem | remu => exact answersRaising_finishX _ _
  | mulw | divw | divuw | remw | remuw => exact .requireRv64 fun _ => answersRaising_finishX _ _
  | flw | fld | fsw | fsd => cases hmem
  | fmaddS | fmsubS | fnmsubS | fnmaddS => exact fpFused_raises .S _ _ _ _ _ _ _
  | fmaddD | fmsubD | fnmsubD | fnmaddD => exact fpFused_raises .D _ _ _ _ _ _ _
  | faddS | fsubS | fmulS | fdivS => exact fpBinary_raises .S _ _ _ _ _
  | faddD | fsubD | fmulD | fdivD => exact fpBinary_raises .D _ _ _ _ _
  | fsqrtS => exact fpRoot_raises .S _ _ _
  | fsqrtD => exact fpRoot_raises .D _ _ _
  | fcvtWS | fcvtWUS => exact fcvtToInt_raises .S _ _ _ _
  | fcvtWD | fcvtWUD => exact fcvtToInt_raises .D _ _ _ _
  | fcvtLS | fcvtLUS => exact .requireRv64 fun _ => fcvtToInt_raises .S _ _ _ _
  | fcvtLD | fcvtLUD => exact .requireRv64 fun _ => fcvtToInt_raises .D _ _ _ _
  | fcvtSW | fcvtDW => exact fcvtFromInt_raises _ .w _ _ (intOfWord_w_readX s _)
  | fcvtSWU | fcvtDWU => exact fcvtFromInt_raises _ .wu _ _ (intOfWord_wu_readX s _)
  | fcvtSL | fcvtDL => exact .requireRv64 fun hrv => fcvtFromInt_raises _ .l _ _ (intOfWord_l_readX hrv _)
  | fcvtSLU | fcvtDLU => exact .requireRv64 fun _ => fcvtFromInt_raises _ .lu _ _ (intOfWord_lu_readX s _)
  | fcvtSD | fcvtDS => exact fcvtFormats_raises _ _ _ _ _
  | fminS | fmaxS => exact fminmax_raises .S _ _ _ _
  | fminD | fmaxD => exact fminmax_raises .D _ _ _ _
  | feqS | fltS | fleS => exact fcmp_raises .S _ _ _ _
  | feqD | fltD | fleD => exact fcmp_raises .D _ _ _ _
  | fclassS => exact fclass_raises_none .S _ _
  | fclassD => exact fclass_raises_none .D _ _
  | fsgnjS | fsgnjnS | fsgnjxS => exact fsgnj_raises_none .S _ _ _ _
  | fsgnjD | fsgnjnD | fsgnjxD => exact fsgnj_raises_none .D _ _ _ _
  | fmvXW => exact .requireFormat (answersRaising_finishX _ _)
  | fmvWX => exact .requireFormat (answersRaising_finishF _ _ _)
  | fmvXD => exact .requireRv64 fun _ => .requireFormat (answersRaising_finishX _ _)
  | fmvDX => exact .requireRv64 fun _ => .requireFormat (answersRaising_finishF _ _ _)

/-- The old flags are among the new ones. -/
theorem bitVec_and_or_self {n : Nat} (a b : BitVec n) : a &&& (a ||| b) = a := by
  apply BitVec.eq_of_getElem_eq
  intro k hk
  rw [BitVec.getElem_and, BitVec.getElem_or]
  exact inf_sup_self

/-- Settles O21: of the answers that `exec_raises` leaves, the illegal outcome changes neither the trap record nor fflags,
and a completed write keeps the trap record, adds the raised bits to fflags and advances the PC. -/
theorem fpExceptionsNeverTrap : Obligations.FpExceptionsNeverTrap := by
  intro i s _ hmem
  have hraises := exec_raises s hmem
  generalize exec i s = answer at hraises ⊢
  cases hraises with
  | illegal => exact ⟨_, illegal_eq s, rfl, rfl, BitVec.and_self, nofun⟩
  | writesX h | writesF h =>
    exact ⟨_, rfl, h.rest.mcause, h.rest.mtval, by rw [h.fflags, bitVec_and_or_self], fun _ => ⟨h.fflags, h.pc⟩⟩

end Sys2Proof.Machine

namespace Sys2Proof.Machine

/-! ### Magnitudes in units (42_fp_numerics.md rule R141)

The units of a word grow with its exponent field, and by the same formula an infinity stands at 2^(emax+1), above every
finite word. So one integer, `valueOf`, orders all words that are no NaNs, and two such words of one value are the same
word or two zeros. -/

theorem unitsOf_of_expOf_eq_zero {F : Fmt} {x : BitVec F.width} (h : expOf F x = 0) : unitsOf F x = fracOf F x :=
  if_pos h

theorem unitsOf_of_expOf_ne_zero {F : Fmt} {x : BitVec F.width} (h : expOf F x ≠ 0) :
    unitsOf F x = (2 ^ F.fracBits + fracOf F x) * 2 ^ (expOf F x - 1) :=
  if_neg h

theorem two_pow_le_unitsOf {F : Fmt} {x : BitVec F.width} (h : expOf F x ≠ 0) :
    2 ^ (F.fracBits + (expOf F x - 1)) ≤ unitsOf F x := by
  rw [unitsOf_of_expOf_ne_zero h, pow_add]
  exact Nat.mul_le_mul_right _ (Nat.le_add_right _ _)

theorem unitsOf_lt_two_pow (F : Fmt) (x : BitVec F.width) : unitsOf F x < 2 ^ (F.fracBits + expOf F x) := by
  have hfrac := fracOf_lt F x
  by_cases h : expOf F x = 0
  · rwa [unitsOf_of_expOf_eq_zero h, h, add_zero]
  · have hexp : F.fracBits + expOf F x = F.fracBits + 1 + (expOf F x - 1) := by omega
    rw [unitsOf_of_expOf_ne_zero h, hexp, pow_add 2 (F.fracBits + 1)]
    exact Nat.mul_lt_mul_of_pos_right (by omega) (Nat.two_pow_pos _)

theorem unitsOf_lt_of_expOf_lt {F : Fmt} {a b : BitVec F.width} (h : expOf F a < expOf F b) :
    unitsOf F a < unitsOf F b :=
  calc unitsOf F a
    _ < 2 ^ (F.fracBits + expOf F a) := unitsOf_lt_two_pow F a
    _ ≤ 2 ^ (F.fracBits + (expOf F b - 1)) := Nat.pow_le_pow_right two_pos (by omega)
    _ ≤ unitsOf F b := two_pow_le_unitsOf (by omega)

theorem expOf_eq_of_unitsOf_eq {F : Fmt} {a b : BitVec F.width} (h : unitsOf F a = unitsOf F b) :
    expOf F a = expOf F b := by
  rcases lt_trichotomy (expOf F a) (expOf F b) with hlt | heq | hgt
  · exact absurd h (unitsOf_lt_of_expOf_lt hlt).ne
  · exact heq
  · exact absurd h (unitsOf_lt_of_expOf_lt hgt).ne'

theorem fracOf_eq_of_unitsOf_eq {F : Fmt} {a b : BitVec F.width} (h : unitsOf F a = unitsOf F b) :
    fracOf F a = fracOf F b := by
  have hexp := expOf_eq_of_unitsOf_eq h
  by_cases hzero : expOf F b = 0
  · rwa [unitsOf_of_expOf_eq_zero (hexp.trans hzero), unitsOf_of_expOf_eq_zero hzero] at h
  · rw [unitsOf_of_expOf_ne_zero (hexp ▸ hzero), unitsOf_of_expOf_ne_zero hzero, hexp] at h
    exact Nat.add_left_cancel (Nat.eq_of_mul_eq_mul_right (Nat.two_pow_pos _) h)

theorem eq_of_signOf_eq_of_unitsOf_eq {F : Fmt} {a b : BitVec F.width} (hs : signOf F a = signOf F b)
    (hu : unitsOf F a = unitsOf F b) : a = b := by
  rw [← packFields_fields F a, hs, expOf_eq_of_unitsOf_eq hu, fracOf_eq_of_unitsOf_eq hu, packFields_fields]

theorem isZero_iff_unitsOf_eq_zero {F : Fmt} {x : BitVec F.width} : isZero F x = true ↔ unitsOf F x = 0 := by
  by_cases h : expOf F x = 0
  · simp [isZero, h, unitsOf_of_expOf_eq_zero h]
  · have hpos := (Nat.two_pow_pos _).trans_le (two_pow_le_unitsOf h)
    simp [isZero, h, hpos.ne']

/-! ### The place of the infinities -/

theorem expOf_of_isInf {F : Fmt} {x : BitVec F.width} (h : isInf F x = true) : expOf F x = F.expOnes := by
  simp only [isInf, Bool.and_eq_true, beq_iff_eq] at h
  exact h.1

theorem fracOf_of_isInf {F : Fmt} {x : BitVec F.width} (h : isInf F x = true) : fracOf F x = 0 := by
  simp only [isInf, Bool.and_eq_true, beq_iff_eq] at h
  exact h.2

theorem expOnes_ne_zero (F : Fmt) : F.expOnes ≠ 0 := by cases F <;> decide

theorem expOf_lt_expOnes {F : Fmt} {x : BitVec F.width} (hn : isNaN F x = false) (hi : isInf F x = false) :
    expOf F x < F.expOnes := by
  have hle : expOf F x ≤ F.expOnes := Nat.le_sub_one_of_lt (expOf_lt F x)
  refine lt_of_le_of_ne hle fun hones => ?_
  by_cases hfrac : fracOf F x = 0
  · simp [isInf, hones, hfrac] at hi
  · simp [isNaN, hones, hfrac] at hn

theorem unitsOf_of_isInf {F : Fmt} {x : BitVec F.width} (h : isInf F x = true) :
    unitsOf F x = 2 ^ (F.scale + F.bias + 1) := by
  have hones : expOf F x ≠ 0 := expOf_of_isInf h ▸ expOnes_ne_zero F
  have hexp : F.fracBits + (F.expOnes - 1) = F.scale + F.bias + 1 := by cases F <;> rfl
  rw [unitsOf_of_expOf_ne_zero hones, fracOf_of_isInf h, expOf_of_isInf h, add_zero, ← pow_add, hexp]

theorem unitsOf_lt_unitsOf_of_isInf {F : Fmt} {a b : BitVec F.width} (hn : isNaN F a = false) (ha : isInf F a = false)
    (hb : isInf F b = true) : unitsOf F a < unitsOf F b :=
  unitsOf_lt_of_expOf_lt (expOf_of_isInf hb ▸ expOf_lt_expOnes hn ha)

theorem orderKey_eq_valueOf (F : Fmt) (x : BitVec F.width) : orderKey F x = valueOf F x := by
  unfold orderKey
  split_ifs with h
  · rw [valueOf, unitsOf_of_isInf h]
  · rfl

/-! ### The order of values (45_fp_compare_class.md rules R240, R245) -/

/-- Units are multiples of 2^(emin − f). -/
theorem valueQ_eq_valueOf_mul (F : Fmt) (x : BitVec F.width) :
    valueQ F x = (valueOf F x : ℚ) * 2 ^ (F.emin - F.fracBits) := by
  have hmag : valueQ F x =
      if signOf F x then -((unitsOf F x : ℚ) * 2 ^ (F.emin - F.fracBits))
      else (unitsOf F x : ℚ) * 2 ^ (F.emin - F.fracBits) := by
    by_cases h : expOf F x = 0
    · rw [valueQ, if_pos h, unitsOf_of_expOf_eq_zero h]
    · have hemin : F.emin = 1 - F.bias := by cases F <;> rfl
      have hexp : (expOf F x : Int) - F.bias - F.fracBits = ((expOf F x - 1 : ℕ) : Int) + (F.emin - F.fracBits) := by
        omega
      rw [valueQ, if_neg h, unitsOf_of_expOf_ne_zero h, hexp, zpow_add₀ two_ne_zero, zpow_natCast, ← mul_assoc]
      push_cast
      rfl
  rw [hmag, valueOf, withSign]
  split_ifs <;> push_cast
  · exact (neg_mul _ _).symm
  · rfl

theorem valueQ_lt_iff (F : Fmt) (a b : BitVec F.width) : valueQ F a < valueQ F b ↔ valueOf F a < valueOf F b := by
  rw [valueQ_eq_valueOf_mul, valueQ_eq_valueOf_mul, mul_lt_mul_iff_left₀ (zpow_pos two_pos _), Int.cast_lt]

theorem valueOf_of_positive {F : Fmt} {x : BitVec F.width} (h : signOf F x = false) : valueOf F x = unitsOf F x := by
  rw [valueOf, h]
  rfl

theorem valueOf_of_negative {F : Fmt} {x : BitVec F.width} (h : signOf F x = true) : valueOf F x = -unitsOf F x := by
  rw [valueOf, h]
  rfl

theorem abs_valueOf (F : Fmt) (x : BitVec F.width) : |valueOf F x| = unitsOf F x := by
  cases h : signOf F x with
  | false => rw [valueOf_of_positive h, Nat.abs_cast]
  | true => rw [valueOf_of_negative h, abs_neg, Nat.abs_cast]

/-- A finite word stands strictly between the two infinities. -/
theorem valueOf_between_of_isInf {F : Fmt} {a b : BitVec F.width} (hn : isNaN F a = false)
    (ha : isInf F a = false) (hb : isInf F b = true) :
    -(unitsOf F b : Int) < valueOf F a ∧ valueOf F a < unitsOf F b := by
  rw [← abs_lt, abs_valueOf]
  exact_mod_cast unitsOf_lt_unitsOf_of_isInf hn ha hb

/-- The model's order key orders the words that are no NaNs as the rules do. -/
theorem below_iff_orderKey_lt {F : Fmt} {a b : BitVec F.width} (ha : isNaN F a = false) (hb : isNaN F b = false) :
    below F a b ↔ orderKey F a < orderKey F b := by
  rw [orderKey_eq_valueOf, orderKey_eq_valueOf, below]
  cases hia : isInf F a <;> cases hib : isInf F b
  case false.false => simpa using valueQ_lt_iff F a b
  case false.true =>
    obtain ⟨hlow, hhigh⟩ := valueOf_between_of_isInf ha hia hib
    cases hsb : signOf F b with
    | false => simpa [valueOf_of_positive hsb] using hhigh
    | true => simpa [valueOf_of_negative hsb] using hlow.le
  case true.false =>
    obtain ⟨hlow, hhigh⟩ := valueOf_between_of_isInf hb hib hia
    cases hsa : signOf F a with
    | false => simpa [valueOf_of_positive hsa] using hhigh.le
    | true => simpa [valueOf_of_negative hsa] using hlow
  case true.true =>
    have heq := (unitsOf_of_isInf hia).trans (unitsOf_of_isInf hib).symm
    have hpos : 0 < unitsOf F b := unitsOf_of_isInf hib ▸ Nat.two_pow_pos _
    have hneg : ¬ (unitsOf F b : Int) < -unitsOf F b := by omega
    cases hsa : signOf F a <;> cases hsb : signOf F b <;>
      simp [valueOf_of_positive, valueOf_of_negative, hsa, hsb, heq, hpos, hneg]

/-- Two words of one order key are the same word or two zeros. -/
theorem eq_of_orderKey_eq {F : Fmt} {a b : BitVec F.width} (h : orderKey F a = orderKey F b)
    (hz : ¬ (isZero F a = true ∧ isZero F b = true)) : a = b := by
  rw [orderKey_eq_valueOf, orderKey_eq_valueOf] at h
  have hunits : unitsOf F a = unitsOf F b := by
    have habs := congrArg abs h
    rw [abs_valueOf, abs_valueOf] at habs
    exact_mod_cast habs
  have hpos : unitsOf F b ≠ 0 := fun hb =>
    hz ⟨isZero_iff_unitsOf_eq_zero.2 (hunits.trans hb), isZero_iff_unitsOf_eq_zero.2 hb⟩
  refine eq_of_signOf_eq_of_unitsOf_eq ?_ hunits
  cases hsa : signOf F a <;> cases hsb : signOf F b
  case false.false | true.true => rfl
  case false.true => rw [valueOf_of_positive hsa, valueOf_of_negative hsb] at h; omega
  case true.false => rw [valueOf_of_negative hsa, valueOf_of_positive hsb] at h; omega

/-! ### The rungs of the ladder (45_fp_compare_class.md rule R240) -/

theorem isQNaN_of_not_isNaN {F : Fmt} {x : BitVec F.width} (h : isNaN F x = false) : isQNaN F x = false := by
  simp [isQNaN, h]

theorem isSNaN_of_not_isNaN {F : Fmt} {x : BitVec F.width} (h : isNaN F x = false) : isSNaN F x = false := by
  simp [isSNaN, h]

section Ladder
variable {F : Fmt} {a b : BitVec F.width} (isMax : Bool)

theorem fpMinMax_of_isSNaN_both (ha : isSNaN F a = true) (hb : isSNaN F b = true) :
    fpMinMax F isMax a b = (canonicalNaN F, FpFlag.nv) := by
  simp [fpMinMax, ha, hb, invalid]

theorem fpMinMax_of_isSNaN_left (ha : isSNaN F a = true) (hb : isSNaN F b = false) :
    fpMinMax F isMax a b = (b, FpFlag.nv) := by
  simp [fpMinMax, ha, hb]

theorem fpMinMax_of_isSNaN_right (ha : isSNaN F a = false) (hb : isSNaN F b = true) :
    fpMinMax F isMax a b = (a, FpFlag.nv) := by
  simp [fpMinMax, ha, hb]

theorem fpMinMax_of_isQNaN_both (ha : isQNaN F a = true) (hb : isQNaN F b = true) :
    fpMinMax F isMax a b = exact F (canonicalNaN F) := by
  simp [fpMinMax, ha, hb, isSNaN_of_isQNaN]

theorem fpMinMax_of_isQNaN_left (ha : isQNaN F a = true) (hb : isNaN F b = false) :
    fpMinMax F isMax a b = exact F b := by
  simp [fpMinMax, ha, isSNaN_of_isQNaN, isQNaN_of_not_isNaN hb, isSNaN_of_not_isNaN hb]

theorem fpMinMax_of_isQNaN_right (ha : isNaN F a = false) (hb : isQNaN F b = true) :
    fpMinMax F isMax a b = exact F a := by
  simp [fpMinMax, hb, isSNaN_of_isQNaN, isQNaN_of_not_isNaN ha, isSNaN_of_not_isNaN ha]

/-- The last two rungs. -/
theorem fpMinMax_of_not_isNaN (ha : isNaN F a = false) (hb : isNaN F b = false) :
    fpMinMax F isMax a b = exact F
      (if isZero F a = true ∧ isZero F b = true ∧ signOf F a ≠ signOf F b then signedZero F (!isMax)
      else if isMax then (if orderKey F b ≤ orderKey F a then a else b)
      else if orderKey F a ≤ orderKey F b then a else b) := by
  simp only [fpMinMax, isQNaN_of_not_isNaN ha, isSNaN_of_not_isNaN ha, isQNaN_of_not_isNaN hb, isSNaN_of_not_isNaN hb,
    Bool.and_self, Bool.false_eq_true, if_false, Bool.and_eq_true, bne_iff_ne, and_assoc, apply_ite (exact F)]

theorem fpMinMax_of_opposite_zeros (ha : isZero F a = true) (hb : isZero F b = true) (hs : signOf F a ≠ signOf F b) :
    fpMinMax F isMax a b = exact F (signedZero F (!isMax)) := by
  rw [fpMinMax_of_not_isNaN isMax (isNaN_of_isFinite (isFinite_of_isZero ha))
    (isNaN_of_isFinite (isFinite_of_isZero hb)), if_pos ⟨ha, hb, hs⟩]

theorem fpMinMax_self (ha : isNaN F a = false) : fpMinMax F isMax a a = exact F a := by
  simp [fpMinMax_of_not_isNaN isMax ha ha]

section Ordered
variable (ha : isNaN F a = false) (hb : isNaN F b = false) (hz : ¬ (isZero F a = true ∧ isZero F b = true))
include ha hb hz

theorem fpMinMax_of_below (h : below F a b) : fpMinMax F isMax a b = exact F (if isMax then b else a) := by
  have hlt := (below_iff_orderKey_lt ha hb).1 h
  rw [fpMinMax_of_not_isNaN isMax ha hb, if_neg fun hop => hz ⟨hop.1, hop.2.1⟩, if_neg hlt.not_ge, if_pos hlt.le]

theorem fpMinMax_of_above (h : below F b a) : fpMinMax F isMax a b = exact F (if isMax then a else b) := by
  have hlt := (below_iff_orderKey_lt hb ha).1 h
  rw [fpMinMax_of_not_isNaN isMax ha hb, if_neg fun hop => hz ⟨hop.1, hop.2.1⟩, if_pos hlt.le, if_neg hlt.not_ge]

theorem eq_of_not_below (hab : ¬ below F a b) (hba : ¬ below F b a) : a = b := by
  rw [below_iff_orderKey_lt ha hb, not_lt] at hab
  rw [below_iff_orderKey_lt hb ha, not_lt] at hba
  exact eq_of_orderKey_eq (le_antisymm hba hab) hz

end Ordered

end Ladder

/-- Settles O50: the rungs one by one; on numbers the model's order key is the order of values, and a key that two words
share makes them one word unless both are zero. -/
theorem minMaxLadder : Obligations.MinMaxLadder := by
  intro F isMax a b
  refine ⟨fpMinMax_of_isSNaN_both isMax, fpMinMax_of_isSNaN_left isMax, fpMinMax_of_isSNaN_right isMax,
    fpMinMax_of_isQNaN_both isMax, fpMinMax_of_isQNaN_left isMax, fpMinMax_of_isQNaN_right isMax,
    fpMinMax_of_opposite_zeros isMax, fun ha hb hz => ?_, fun ha hab => ?_⟩
  · refine ⟨fpMinMax_of_below isMax ha hb hz, fpMinMax_of_above isMax ha hb hz, fun hab hba => ?_⟩
    obtain rfl := eq_of_not_below ha hb hz hab hba
    exact ⟨rfl, fpMinMax_self isMax ha⟩
  · subst hab
    exact fpMinMax_self isMax (isNaN_of_isFinite (isFinite_of_isZero ha))

end Sys2Proof.Machine

namespace Sys2Proof.Machine

/-! ### Sign injection (46_fp_sign_move.md rule R260)

A word is its sign times 2^(w−1) plus its magnitude bits, and negation keeps the magnitude bits. So the model's choice
between a and its negation is the word of a's magnitude bits under the injected sign. -/

/-- The word of the magnitude bits of `a` under the given sign bit. -/
def underSign (F : Fmt) (sign : Nat) (a : BitVec F.width) : BitVec F.width :=
  BitVec.ofNat F.width (sign * 2 ^ (F.width - 1) + a.toNat % 2 ^ (F.width - 1))

theorem signOf_toNat (F : Fmt) (x : BitVec F.width) : (signOf F x).toNat = x.toNat / 2 ^ (F.width - 1) := by
  have hx := x.isLt
  rw [signOf, BitVec.msb_eq_decide, Bool.toNat, Bool.cond_decide]
  cases F <;> simp only [Fmt.width, Nat.reduceSub, Nat.reducePow] at hx ⊢ <;> split <;> omega

theorem underSign_signOf (F : Fmt) (x : BitVec F.width) : underSign F (signOf F x).toNat x = x := by
  rw [underSign, signOf_toNat, Nat.div_add_mod', BitVec.ofNat_toNat, BitVec.setWidth_eq]

theorem negate_toNat_mod (F : Fmt) (x : BitVec F.width) :
    (negate F x).toNat % 2 ^ (F.width - 1) = x.toNat % 2 ^ (F.width - 1) := by
  rw [negate, BitVec.toNat_xor, signBit_toNat, Nat.xor_mod_two_pow, Nat.mod_self, Nat.xor_zero]

theorem underSign_negate (F : Fmt) (sign : Nat) (x : BitVec F.width) :
    underSign F sign (negate F x) = underSign F sign x := by
  rw [underSign, negate_toNat_mod, underSign]

theorem fpSgnj_eq_underSign (F : Fmt) (kind : SgnjKind) (a b : BitVec F.width) :
    fpSgnj F kind a b = underSign F (injectedSign kind (signOf F a) (signOf F b)).toNat a := by
  rw [fpSgnj]
  split_ifs with hkeep
  · rw [hkeep, underSign_signOf]
  · have hflip : injectedSign kind (signOf F a) (signOf F b) = signOf F (negate F a) := by
      rw [signOf_negate, Bool.eq_not]
      exact hkeep
    rw [hflip, ← underSign_negate, underSign_signOf]

/-! The three injections and the absolute value, on sign bits as numbers. -/

section Kinds
variable (F : Fmt) (a b : BitVec F.width)

theorem fpSgnj_j : fpSgnj F .j a b = underSign F (b.toNat / 2 ^ (F.width - 1)) a := by
  rw [fpSgnj_eq_underSign, injectedSign, signOf_toNat]

theorem fpSgnj_jn : fpSgnj F .jn a b = underSign F (1 - b.toNat / 2 ^ (F.width - 1)) a := by
  have hnot : ∀ x : Bool, (!x).toNat = 1 - x.toNat := by decide
  rw [fpSgnj_eq_underSign, injectedSign, hnot, signOf_toNat]

theorem fpSgnj_jx :
    fpSgnj F .jx a b = underSign F ((a.toNat / 2 ^ (F.width - 1) + b.toNat / 2 ^ (F.width - 1)) % 2) a := by
  have hxor : ∀ x y : Bool, (x ^^ y).toNat = (x.toNat + y.toNat) % 2 := by decide
  rw [fpSgnj_eq_underSign, injectedSign, hxor, signOf_toNat, signOf_toNat]

theorem fpSgnj_jx_self : fpSgnj F .jx a a = BitVec.ofNat F.width (a.toNat % 2 ^ (F.width - 1)) := by
  rw [fpSgnj_eq_underSign, injectedSign, Bool.xor_self, underSign, Bool.toNat_false, Nat.zero_mul, Nat.zero_add]

end Kinds

/-- A meaning that ends in `finishF` completes and raises no flag. -/
theorem completes_of_finishF {i : Instr} {s : State} {F : Fmt} {rd : FReg} {v : BitVec F.width}
    (h : exec i s = finishF s F rd v) : Completes i s fun t => WroteFp F s t rd (v, 0) := by
  have hw := wroteF_retire s F rd v FpFlag.none
  rw [accrue_none] at hw
  exact ⟨_, h, hw⟩

theorem completes_of_fsgnj {i : Instr} {s : State} {F : Fmt} {kind : SgnjKind} {rd rs1 rs2 : FReg} {v : BitVec F.width}
    (hF : s.hasFormat F = true) (hi : exec i s = fsgnj F kind rd rs1 rs2 s)
    (hv : fpSgnj F kind (s.readFp F rs1) (s.readFp F rs2) = v) : Completes i s fun t => WroteFp F s t rd (v, 0) := by
  apply completes_of_finishF
  rw [hi, fsgnj, requireFormat_true hF, hv]

/-- Settles O38: each of the six instructions is the sign injection of its format and kind, and the injected word is the
magnitude bits of rs1 under the sign that the kind names. -/
theorem signInjectionResults : Obligations.SignInjectionResults := by
  intro rd rs1 rs2 s
  refine ⟨fun hF => ?single, fun ⟨hF, hD⟩ => ?double⟩
  case single =>
    have hformat : s.hasFormat .S = true := hF
    exact ⟨completes_of_fsgnj hformat rfl (fpSgnj_j .S _ _), completes_of_fsgnj hformat rfl (fpSgnj_jn .S _ _),
      completes_of_fsgnj hformat rfl (fpSgnj_jx .S _ _), completes_of_fsgnj hformat rfl (fpSgnj_jx_self .S _)⟩
  case double =>
    have hformat : s.hasFormat .D = true := by rw [hasFormat_D, hF, hD, Bool.and_self]
    exact ⟨completes_of_fsgnj hformat rfl (fpSgnj_j .D _ _), completes_of_fsgnj hformat rfl (fpSgnj_jn .D _ _),
      completes_of_fsgnj hformat rfl (fpSgnj_jx .D _ _), completes_of_fsgnj hformat rfl (fpSgnj_jx_self .D _)⟩

end Sys2Proof.Machine

namespace Sys2Proof.Machine

/-! ### Addresses (20_memory.md rule R51)

The model adds in 64 bits and then keeps XLEN of them; as XLEN ≤ 64 this is the integer sum at XLEN. -/

theorem wrapX_ofInt (s : State) (i : Int) : wrapX s.rv (BitVec.ofInt 64 i) = wordX s i := by
  apply BitVec.eq_of_toNat_eq
  rw [wrapX_toNat, wordX_eq_ofInt, BitVec.toNat_setWidth_of_le (xlen_le s.rv), BitVec.toNat_ofInt, BitVec.toNat_ofInt]
  cases s.rv <;> simp only [Rv.xlen] <;> omega

theorem readX_add_signExtend (s : State) (rs1 : XReg) (imm : BitVec 12) :
    s.readX rs1 + imm.signExtend 64 = BitVec.ofInt 64 (unsignedX s rs1 + imm.toInt) := by
  rw [BitVec.ofInt_add, unsignedX, BitVec.ofInt_natCast, BitVec.ofNat_toNat, BitVec.setWidth_eq, BitVec.signExtend]

theorem effectiveAddress_eq_addressOf (s : State) (rs1 : XReg) (imm : BitVec 12) :
    s.effectiveAddress rs1 imm = addressOf s rs1 imm := by
  rw [State.effectiveAddress, readX_add_signExtend, wrapX_ofInt, addressOf]

/-! ### A failing host call (47_fp_load_store.md rule R285, 60_exceptions.md rule R305) -/

/-- A trap recorded on the state that the failing call left. -/
def recordTrap (m : State) (code ea : Word) : Result := .next { m with mcause := code, mtval := ea, legal := true }

section Failures
variable {s m m1 : State} {w : MemWidth} {ea pa v code : Word} {k : Word → State → Result}

theorem andThen_of_error {a : HostAnswer} (h : a = .error code m) : a.andThen ea k = recordTrap m code ea := by
  rw [h, HostAnswer.andThen, finishTrap_eq, recordTrap]

theorem andThen_of_ok {a : HostAnswer} (h : a = .ok v m) : a.andThen ea k = k v m := by
  rw [h, HostAnswer.andThen]

theorem loadThen_of_translate_error (h : translate s .load ea = .error code m) :
    loadThen s w ea k = recordTrap m code ea :=
  andThen_of_error h

theorem storeThen_of_translate_error (h : translate s .store ea = .error code m) :
    storeThen s w ea v = recordTrap m code ea :=
  andThen_of_error h

theorem loadThen_of_memRead_error (ht : translate s .load ea = .ok pa m1)
    (hr : memRead m1 m1.host.loadAccessFault w pa = .error code m) : loadThen s w ea k = recordTrap m code ea :=
  (andThen_of_ok ht).trans (andThen_of_error hr)

theorem storeThen_of_memWrite_error (ht : translate s .store ea = .ok pa m1)
    (hw : memWrite m1 w pa v = .error code m) : storeThen s w ea v = recordTrap m code ea :=
  (andThen_of_ok ht).trans (andThen_of_error hw)

end Failures

/-! ### The four legal forms as a load or a store (47_fp_load_store.md rules R280 to R283) -/

theorem setWidth_low32 (v : Word) : (low32 v).setWidth 64 = BitVec.ofNat 64 (v.toNat % 2 ^ 32) := by
  rw [← toNat_low32, BitVec.ofNat_toNat]

section Forms
variable {s : State} (fr : FReg) (rs1 : XReg) (imm : BitVec 12)

theorem hasFormat_D_of_hasFD (h : HasFD s) : s.hasFormat .D = true := by
  obtain ⟨hF, hD⟩ := h
  rw [hasFormat_D, hF, hD, Bool.and_self]

theorem exec_flw (h : HasF s) :
    exec (.flw fr rs1 imm) s =
      loadThen s .word (addressOf s rs1 imm) fun v s' => finishF s' .S fr (low32 v) := by
  rw [← effectiveAddress_eq_addressOf]
  exact requireFormat_true (F := .S) h _

theorem exec_fld (h : HasFD s) :
    exec (.fld fr rs1 imm) s = loadThen s .double (addressOf s rs1 imm) fun v s' => finishF s' .D fr v := by
  rw [← effectiveAddress_eq_addressOf]
  exact requireFormat_true (hasFormat_D_of_hasFD h) _

theorem exec_fsw (h : HasF s) :
    exec (.fsw fr rs1 imm) s =
      storeThen s .word (addressOf s rs1 imm) (BitVec.ofNat 64 ((s.readF fr).toNat % 2 ^ 32)) := by
  rw [← effectiveAddress_eq_addressOf, ← setWidth_low32]
  exact requireFormat_true (F := .S) h _

theorem exec_fsd (h : HasFD s) :
    exec (.fsd fr rs1 imm) s = storeThen s .double (addressOf s rs1 imm) (s.readF fr) := by
  rw [← effectiveAddress_eq_addressOf]
  exact requireFormat_true (hasFormat_D_of_hasFD h) _

end Forms

/-- Settles O56: a legal form is a load or a store at the effective address, and each of its two host calls that fails
records its code and that address on the state it left. -/
theorem memoryErrorsAreRecorded : Obligations.MemoryErrorsAreRecorded := by
  intro fr rs1 imm s
  refine ⟨fun code m ht => ?loadTranslation, fun code m ht => ?storeTranslation,
    fun pa m1 code m ht => ?read, fun pa m1 code m ht => ?write⟩
  case loadTranslation =>
    exact ⟨fun hF => (exec_flw fr rs1 imm hF).trans (loadThen_of_translate_error ht),
      fun hFD => (exec_fld fr rs1 imm hFD).trans (loadThen_of_translate_error ht)⟩
  case storeTranslation =>
    exact ⟨fun hF => (exec_fsw fr rs1 imm hF).trans (storeThen_of_translate_error ht),
      fun hFD => (exec_fsd fr rs1 imm hFD).trans (storeThen_of_translate_error ht)⟩
  case read =>
    exact ⟨fun hF hr => (exec_flw fr rs1 imm hF).trans (loadThen_of_memRead_error ht hr),
      fun hFD hr => (exec_fld fr rs1 imm hFD).trans (loadThen_of_memRead_error ht hr)⟩
  case write =>
    exact ⟨fun hF hw => (exec_fsw fr rs1 imm hF).trans (storeThen_of_memWrite_error ht hw),
      fun hFD hw => (exec_fsd fr rs1 imm hFD).trans (storeThen_of_memWrite_error ht hw)⟩

end Sys2Proof.Machine

namespace Sys2Proof.Machine

/-! ### Decoding an encoded instruction (30_encoding.md rules R70 to R81) -/

/-- Every field of the encoded word reads back as the operand or the constant it was laid out from, so each decoder
table is entered at the instruction's own line. -/
theorem decode_encode (i : Instr) : decode (encode i) = .ok i := by
  cases i with
  | mul | mulh | mulhsu | mulhu | div | divu | rem | remu => simp [encode, decode, decodeOp, rdOf, rs1Of, rs2Of]
  | mulw | divw | divuw | remw | remuw => simp [encode, decode, decodeOp32, rdOf, rs1Of, rs2Of]
  | flw | fld => simp [encode, decode, decodeLoad, rdOf, rs1Of]
  | fsw | fsd => simp [encode, decode, decodeStore, rs1Of, rs2Of]
  | fmaddS | fmaddD => simp [encode, decode, decodeFmadd, rdOf, rs1Of, rs2Of, rs3Of, rmOfWord]
  | fmsubS | fmsubD => simp [encode, decode, decodeFmsub, rdOf, rs1Of, rs2Of, rs3Of, rmOfWord]
  | fnmsubS | fnmsubD => simp [encode, decode, decodeFnmsub, rdOf, rs1Of, rs2Of, rs3Of, rmOfWord]
  | fnmaddS | fnmaddD => simp [encode, decode, decodeFnmadd, rdOf, rs1Of, rs2Of, rs3Of, rmOfWord]
  | faddS | fsubS | fmulS | fdivS | faddD | fsubD | fmulD | fdivD | fsqrtS | fsqrtD | fcvtSD | fcvtDS =>
    simp [encode, decode, decodeOpFp, rdOf, rs1Of, rs2Of, rmOfWord]
  | fcvtWS | fcvtWUS | fcvtLS | fcvtLUS => simp [encode, decode, decodeOpFp, decodeIntOfS, rdOf, rs1Of, rmOfWord]
  | fcvtSW | fcvtSWU | fcvtSL | fcvtSLU => simp [encode, decode, decodeOpFp, decodeSOfInt, rdOf, rs1Of, rmOfWord]
  | fcvtWD | fcvtWUD | fcvtLD | fcvtLUD => simp [encode, decode, decodeOpFp, decodeIntOfD, rdOf, rs1Of, rmOfWord]
  | fcvtDW | fcvtDWU | fcvtDL | fcvtDLU => simp [encode, decode, decodeOpFp, decodeDOfInt, rdOf, rs1Of, rmOfWord]
  | fminS | fmaxS => simp [encode, decode, decodeOpFp, decodeMinMaxS, rdOf, rs1Of, rs2Of]
  | fminD | fmaxD => simp [encode, decode, decodeOpFp, decodeMinMaxD, rdOf, rs1Of, rs2Of]
  | feqS | fltS | fleS => simp [encode, decode, decodeOpFp, decodeCmpS, rdOf, rs1Of, rs2Of]
  | feqD | fltD | fleD => simp [encode, decode, decodeOpFp, decodeCmpD, rdOf, rs1Of, rs2Of]
  | fclassS | fmvXW => simp [encode, decode, decodeOpFp, decodeMvClassS, rdOf, rs1Of]
  | fclassD | fmvXD => simp [encode, decode, decodeOpFp, decodeMvClassD, rdOf, rs1Of]
  | fsgnjS | fsgnjnS | fsgnjxS => simp [encode, decode, decodeOpFp, decodeSgnjS, rdOf, rs1Of, rs2Of]
  | fsgnjD | fsgnjnD | fsgnjxD => simp [encode, decode, decodeOpFp, decodeSgnjD, rdOf, rs1Of, rs2Of]
  | fmvWX | fmvDX => simp [encode, decode, decodeOpFp, rdOf, rs1Of]

/-- Settles O2: `decode_encode`. -/
theorem decodeOfEncode : Obligations.DecodeOfEncode := decode_encode

end Sys2Proof.Machine

namespace Sys2Proof.Machine

/-! ### A word is its fields under each layout (30_encoding.md rules R70 to R73) -/

theorem rmBits_rmOf : ∀ b : BitVec 3, rmBits (rmOf b) = b := by decide

theorem funct3Field_eq_rmBits (w : InstWord) : (funct3Field w).toNat = (rmBits (rmOfWord w)).toNat :=
  (congrArg BitVec.toNat (rmBits_rmOf _)).symm

section Layouts
variable {w : InstWord} {opcode : BitVec 7} (hop : (opcodeField w).toNat = opcode.toNat)
include hop

theorem rType_eq_of_fields {funct7 : BitVec 7} {rs2 rs1 rd : BitVec 5} {funct3 : BitVec 3}
    (h7 : (funct7Field w).toNat = funct7.toNat) (h2 : (rs2Field w).toNat = rs2.toNat)
    (h1 : (rs1Field w).toNat = rs1.toNat) (h3 : (funct3Field w).toNat = funct3.toNat)
    (hd : (rdField w).toNat = rd.toNat) : rType funct7 rs2 rs1 funct3 rd opcode = w := by
  apply BitVec.eq_of_toNat_eq
  rw [Laws.rType_toNat, ← hop, ← h7, ← h2, ← h1, ← h3, ← hd]
  simp only [opcodeField, funct7Field, rs2Field, rs1Field, funct3Field, rdField, Laws.extract_toNat]
  have := w.isLt
  omega

theorem r4Type_eq_of_fields {rs3 rs2 rs1 rd : BitVec 5} {funct2 : BitVec 2} {rm : BitVec 3}
    (h3 : (rs3Field w).toNat = rs3.toNat) (hf : (funct2Field w).toNat = funct2.toNat)
    (h2 : (rs2Field w).toNat = rs2.toNat) (h1 : (rs1Field w).toNat = rs1.toNat)
    (hm : (funct3Field w).toNat = rm.toNat) (hd : (rdField w).toNat = rd.toNat) :
    r4Type rs3 funct2 rs2 rs1 rm rd opcode = w := by
  apply BitVec.eq_of_toNat_eq
  rw [Laws.r4Type_toNat, ← hop, ← h3, ← hf, ← h2, ← h1, ← hm, ← hd]
  simp only [opcodeField, rs3Field, funct2Field, rs2Field, rs1Field, funct3Field, rdField, Laws.extract_toNat]
  have := w.isLt
  omega

theorem iType_eq_of_fields {imm : BitVec 12} {rs1 rd : BitVec 5} {funct3 : BitVec 3}
    (hi : (immIField w).toNat = imm.toNat) (h1 : (rs1Field w).toNat = rs1.toNat)
    (h3 : (funct3Field w).toNat = funct3.toNat) (hd : (rdField w).toNat = rd.toNat) :
    iType imm rs1 funct3 rd opcode = w := by
  apply BitVec.eq_of_toNat_eq
  rw [Laws.iType_toNat, ← hop, ← hi, ← h1, ← h3, ← hd]
  simp only [opcodeField, immIField, rs1Field, funct3Field, rdField, Laws.extract_toNat]
  have := w.isLt
  omega

theorem sType_eq_of_fields {imm : BitVec 12} {rs2 rs1 : BitVec 5} {funct3 : BitVec 3}
    (hi : (immSField w).toNat = imm.toNat) (h2 : (rs2Field w).toNat = rs2.toNat)
    (h1 : (rs1Field w).toNat = rs1.toNat) (h3 : (funct3Field w).toNat = funct3.toNat) :
    sType imm rs2 rs1 funct3 opcode = w := by
  apply BitVec.eq_of_toNat_eq
  rw [Laws.sType_toNat, ← hop, ← hi, ← h2, ← h1, ← h3]
  simp only [opcodeField, immSField, rs2Field, rs1Field, funct3Field, Laws.extract_toNat, Laws.append_toNat]
  have := w.isLt
  omega

end Layouts

/-! ### Encoding what each table of the decoder reads (30_encoding.md rules R75 to R80)

In every line of a table the fixed fields are the ones the branch has compared, and the operands are the word's own
fields. -/

section Tables
variable {w : InstWord} {i : Instr}

theorem encode_of_decodeOp (hop : (opcodeField w).toNat = 0x33) (h7 : (funct7Field w).toNat = 0x01)
    (h : decodeOp w = .ok i) : encode i = w := by
  unfold decodeOp at h
  split at h <;> cases h
  all_goals exact rType_eq_of_fields hop h7 rfl rfl ‹_› rfl

theorem encode_of_decodeOp32 (hop : (opcodeField w).toNat = 0x3B) (h7 : (funct7Field w).toNat = 0x01)
    (h : decodeOp32 w = .ok i) : encode i = w := by
  unfold decodeOp32 at h
  split at h <;> cases h
  all_goals exact rType_eq_of_fields hop h7 rfl rfl ‹_› rfl

theorem encode_of_decodeLoad (hop : (opcodeField w).toNat = 0x07) (h : decodeLoad w = .ok i) : encode i = w := by
  unfold decodeLoad at h
  split at h <;> cases h
  all_goals exact iType_eq_of_fields hop rfl rfl ‹_› rfl

theorem encode_of_decodeStore (hop : (opcodeField w).toNat = 0x27) (h : decodeStore w = .ok i) : encode i = w := by
  unfold decodeStore at h
  split at h <;> cases h
  all_goals exact sType_eq_of_fields hop rfl rfl rfl ‹_›

theorem encode_of_decodeFmadd (hop : (opcodeField w).toNat = 0x43) (h : decodeFmadd w = .ok i) : encode i = w := by
  unfold decodeFmadd at h
  split at h <;> cases h
  all_goals exact r4Type_eq_of_fields hop rfl ‹_› rfl rfl (funct3Field_eq_rmBits w) rfl

theorem encode_of_decodeFmsub (hop : (opcodeField w).toNat = 0x47) (h : decodeFmsub w = .ok i) : encode i = w := by
  unfold decodeFmsub at h
  split at h <;> cases h
  all_goals exact r4Type_eq_of_fields hop rfl ‹_› rfl rfl (funct3Field_eq_rmBits w) rfl

theorem encode_of_decodeFnmsub (hop : (opcodeField w).toNat = 0x4B) (h : decodeFnmsub w = .ok i) : encode i = w := by
  unfold decodeFnmsub at h
  split at h <;> cases h
  all_goals exact r4Type_eq_of_fields hop rfl ‹_› rfl rfl (funct3Field_eq_rmBits w) rfl

theorem encode_of_decodeFnmadd (hop : (opcodeField w).toNat = 0x4F) (h : decodeFnmadd w = .ok i) : encode i = w := by
  unfold decodeFnmadd at h
  split at h <;> cases h
  all_goals exact r4Type_eq_of_fields hop rfl ‹_› rfl rfl (funct3Field_eq_rmBits w) rfl

section OpFp
variable (hop : (opcodeField w).toNat = 0x53)
include hop

/-! The tables under one funct7 that are told apart by rs2. -/

theorem encode_of_decodeIntOfS (h7 : (funct7Field w).toNat = 0b1100000) (h : decodeIntOfS w = .ok i) : encode i = w := by
  unfold decodeIntOfS at h
  split at h <;> cases h
  all_goals exact rType_eq_of_fields hop h7 ‹_› rfl (funct3Field_eq_rmBits w) rfl

theorem encode_of_decodeSOfInt (h7 : (funct7Field w).toNat = 0b1101000) (h : decodeSOfInt w = .ok i) : encode i = w := by
  unfold decodeSOfInt at h
  split at h <;> cases h
  all_goals exact rType_eq_of_fields hop h7 ‹_› rfl (funct3Field_eq_rmBits w) rfl

theorem encode_of_decodeIntOfD (h7 : (funct7Field w).toNat = 0b1100001) (h : decodeIntOfD w = .ok i) : encode i = w := by
  unfold decodeIntOfD at h
  split at h <;> cases h
  all_goals exact rType_eq_of_fields hop h7 ‹_› rfl (funct3Field_eq_rmBits w) rfl

theorem encode_of_decodeDOfInt (h7 : (funct7Field w).toNat = 0b1101001) (h : decodeDOfInt w = .ok i) : encode i = w := by
  unfold decodeDOfInt at h
  split at h <;> cases h
  all_goals exact rType_eq_of_fields hop h7 ‹_› rfl (funct3Field_eq_rmBits w) rfl

/-! The tables under one funct7 that are told apart by funct3. -/

theorem encode_of_decodeMinMaxS (h7 : (funct7Field w).toNat = 0b0010100) (h : decodeMinMaxS w = .ok i) :
    encode i = w := by
  unfold decodeMinMaxS at h
  split at h <;> cases h
  all_goals exact rType_eq_of_fields hop h7 rfl rfl ‹_› rfl

theorem encode_of_decodeMinMaxD (h7 : (funct7Field w).toNat = 0b0010101) (h : decodeMinMaxD w = .ok i) :
    encode i = w := by
  unfold decodeMinMaxD at h
  split at h <;> cases h
  all_goals exact rType_eq_of_fields hop h7 rfl rfl ‹_› rfl

theorem encode_of_decodeCmpS (h7 : (funct7Field w).toNat = 0b1010000) (h : decodeCmpS w = .ok i) : encode i = w := by
  unfold decodeCmpS at h
  split at h <;> cases h
  all_goals exact rType_eq_of_fields hop h7 rfl rfl ‹_› rfl

theorem encode_of_decodeCmpD (h7 : (funct7Field w).toNat = 0b1010001) (h : decodeCmpD w = .ok i) : encode i = w := by
  unfold decodeCmpD at h
  split at h <;> cases h
  all_goals exact rType_eq_of_fields hop h7 rfl rfl ‹_› rfl

theorem encode_of_decodeSgnjS (h7 : (funct7Field w).toNat = 0b0010000) (h : decodeSgnjS w = .ok i) : encode i = w := by
  unfold decodeSgnjS at h
  split at h <;> cases h
  all_goals exact rType_eq_of_fields hop h7 rfl rfl ‹_› rfl

theorem encode_of_decodeSgnjD (h7 : (funct7Field w).toNat = 0b0010001) (h : decodeSgnjD w = .ok i) : encode i = w := by
  unfold decodeSgnjD at h
  split at h <;> cases h
  all_goals exact rType_eq_of_fields hop h7 rfl rfl ‹_› rfl

theorem encode_of_decodeMvClassS (h7 : (funct7Field w).toNat = 0b1110000) (h2 : (rs2Field w).toNat = 0)
    (h : decodeMvClassS w = .ok i) : encode i = w := by
  unfold decodeMvClassS at h
  split at h <;> cases h
  all_goals exact rType_eq_of_fields hop h7 h2 rfl ‹_› rfl

theorem encode_of_decodeMvClassD (h7 : (funct7Field w).toNat = 0b1110001) (h2 : (rs2Field w).toNat = 0)
    (h : decodeMvClassD w = .ok i) : encode i = w := by
  unfold decodeMvClassD at h
  split at h <;> cases h
  all_goals exact rType_eq_of_fields hop h7 h2 rfl ‹_› rfl

end OpFp

/-- What a comparison with a fixed field that succeeds says. -/
theorem ok_of_ite {c : Prop} [Decidable c] {r : Except Reject Instr} {e : Reject}
    (h : (if c then r else .error e) = .ok i) : c ∧ r = .ok i := by
  split at h
  · exact ⟨‹c›, h⟩
  · cases h

theorem encode_of_decodeOpFp (hop : (opcodeField w).toNat = 0x53) (h : decodeOpFp w = .ok i) : encode i = w := by
  have hrm := funct3Field_eq_rmBits w
  unfold decodeOpFp at h
  split at h <;> rename_i h7
  case h_1 | h_2 | h_3 | h_4 | h_6 | h_7 | h_8 | h_9 => cases h; exact rType_eq_of_fields hop h7 rfl rfl hrm rfl
  case h_5 | h_10 | h_15 | h_16 =>
    obtain ⟨h2, h⟩ := ok_of_ite h
    cases h
    exact rType_eq_of_fields hop h7 (congrArg BitVec.toNat h2) rfl hrm rfl
  case h_11 => exact encode_of_decodeIntOfS hop h7 h
  case h_12 => exact encode_of_decodeSOfInt hop h7 h
  case h_13 => exact encode_of_decodeIntOfD hop h7 h
  case h_14 => exact encode_of_decodeDOfInt hop h7 h
  case h_17 => exact encode_of_decodeMinMaxS hop h7 h
  case h_18 => exact encode_of_decodeMinMaxD hop h7 h
  case h_19 => exact encode_of_decodeCmpS hop h7 h
  case h_20 => exact encode_of_decodeCmpD hop h7 h
  case h_21 =>
    obtain ⟨h2, h⟩ := ok_of_ite h
    exact encode_of_decodeMvClassS hop h7 (congrArg BitVec.toNat h2) h
  case h_22 =>
    obtain ⟨h2, h⟩ := ok_of_ite h
    exact encode_of_decodeMvClassD hop h7 (congrArg BitVec.toNat h2) h
  case h_23 => exact encode_of_decodeSgnjS hop h7 h
  case h_24 => exact encode_of_decodeSgnjD hop h7 h
  case h_25 | h_26 =>
    obtain ⟨h2, h⟩ := ok_of_ite h
    obtain ⟨h3, h⟩ := ok_of_ite h
    cases h
    exact rType_eq_of_fields hop h7 (congrArg BitVec.toNat h2) rfl (congrArg BitVec.toNat h3) rfl
  case h_27 => cases h

theorem encode_of_decode (h : decode w = .ok i) : encode i = w := by
  unfold decode at h
  split at h <;> rename_i hop
  case h_1 =>
    obtain ⟨h7, h⟩ := ok_of_ite h
    exact encode_of_decodeOp hop (congrArg BitVec.toNat h7) h
  case h_2 =>
    obtain ⟨h7, h⟩ := ok_of_ite h
    exact encode_of_decodeOp32 hop (congrArg BitVec.toNat h7) h
  case h_3 => exact encode_of_decodeLoad hop h
  case h_4 => exact encode_of_decodeStore hop h
  case h_5 => exact encode_of_decodeOpFp hop h
  case h_6 => exact encode_of_decodeFmadd hop h
  case h_7 => exact encode_of_decodeFmsub hop h
  case h_8 => exact encode_of_decodeFnmsub hop h
  case h_9 => exact encode_of_decodeFnmadd hop h
  case h_10 => cases h

end Tables

/-- Settles O3, table by table of the decoder. -/
theorem encodeOfDecode : Obligations.EncodeOfDecode := fun _ _ => encode_of_decode

end Sys2Proof.Machine

namespace Sys2Proof.Machine

/-! ### A word that matches a row (30_encoding.md rules R78, R82)

A mask keeps the fields that the row fixes, so a matching word is the row's own layout around the word's operand fields:
the encoding of an instruction of that row. -/

section Rows
variable {w : InstWord} {opcode : BitVec 7} {funct7 : BitVec 7} {funct3 : BitVec 3} {funct2 : BitVec 2} {rs2 : BitVec 5}

theorem word_eq_rType (w : InstWord) :
    rType (funct7Field w) (rs2Field w) (rs1Field w) (funct3Field w) (rdField w) (opcodeField w) = w :=
  rType_eq_of_fields rfl rfl rfl rfl rfl rfl

theorem exists_encode_of_mask_funct3 {mk : Fin 32 → Fin 32 → Fin 32 → Instr} {a b c : Fin 32}
    (henc : ∀ rd rs1 rs2, encode (mk rd rs1 rs2) = rType funct7 (regBits rs2) (regBits rs1) funct3 (regBits rd) opcode)
    (hrow : ∀ rd rs1 rs2, (mk rd rs1 rs2).row = (mk a b c).row)
    (h : w &&& 0xFE00707F#32 = rType funct7 0 0 funct3 0 opcode) :
    ∃ i : Instr, encode i = w ∧ i.row = (mk a b c).row := by
  rw [← word_eq_rType w, Laws.rType_mask_funct3] at h
  have hop := congrArg opcodeField h
  have h7 := congrArg funct7Field h
  have h3 := congrArg funct3Field h
  simp only [Laws.opcodeField_rType, Laws.funct7Field_rType, Laws.funct3Field_rType] at hop h7 h3
  refine ⟨mk (rdOf w) (rs1Of w) (rs2Of w), ?_, hrow _ _ _⟩
  rw [henc, ← hop, ← h7, ← h3]
  exact word_eq_rType w

theorem exists_encode_of_mask_rm {mk : Fin 32 → Fin 32 → Fin 32 → Rm → Instr} {a b c : Fin 32} {m : Rm}
    (henc : ∀ rd rs1 rs2 rm,
      encode (mk rd rs1 rs2 rm) = rType funct7 (regBits rs2) (regBits rs1) (rmBits rm) (regBits rd) opcode)
    (hrow : ∀ rd rs1 rs2 rm, (mk rd rs1 rs2 rm).row = (mk a b c m).row)
    (h : w &&& 0xFE00007F#32 = rType funct7 0 0 0 0 opcode) :
    ∃ i : Instr, encode i = w ∧ i.row = (mk a b c m).row := by
  rw [← word_eq_rType w, Laws.rType_mask_rm] at h
  have hop := congrArg opcodeField h
  have h7 := congrArg funct7Field h
  simp only [Laws.opcodeField_rType, Laws.funct7Field_rType] at hop h7
  refine ⟨mk (rdOf w) (rs1Of w) (rs2Of w) (rmOfWord w), ?_, hrow _ _ _ _⟩
  rw [henc, ← hop, ← h7, rmOfWord, rmBits_rmOf]
  exact word_eq_rType w

theorem exists_encode_of_mask_rs2_funct3 {mk : Fin 32 → Fin 32 → Instr} {a b : Fin 32}
    (henc : ∀ rd rs1, encode (mk rd rs1) = rType funct7 rs2 (regBits rs1) funct3 (regBits rd) opcode)
    (hrow : ∀ rd rs1, (mk rd rs1).row = (mk a b).row)
    (h : w &&& 0xFFF0707F#32 = rType funct7 rs2 0 funct3 0 opcode) :
    ∃ i : Instr, encode i = w ∧ i.row = (mk a b).row := by
  rw [← word_eq_rType w, Laws.rType_mask_rs2_funct3] at h
  have hop := congrArg opcodeField h
  have h7 := congrArg funct7Field h
  have h2 := congrArg rs2Field h
  have h3 := congrArg funct3Field h
  simp only [Laws.opcodeField_rType, Laws.funct7Field_rType, Laws.rs2Field_rType, Laws.funct3Field_rType]
    at hop h7 h2 h3
  refine ⟨mk (rdOf w) (rs1Of w), ?_, hrow _ _⟩
  rw [henc, ← hop, ← h7, ← h2, ← h3]
  exact word_eq_rType w

theorem exists_encode_of_mask_rs2_rm {mk : Fin 32 → Fin 32 → Rm → Instr} {a b : Fin 32} {m : Rm}
    (henc : ∀ rd rs1 rm, encode (mk rd rs1 rm) = rType funct7 rs2 (regBits rs1) (rmBits rm) (regBits rd) opcode)
    (hrow : ∀ rd rs1 rm, (mk rd rs1 rm).row = (mk a b m).row)
    (h : w &&& 0xFFF0007F#32 = rType funct7 rs2 0 0 0 opcode) :
    ∃ i : Instr, encode i = w ∧ i.row = (mk a b m).row := by
  rw [← word_eq_rType w, Laws.rType_mask_rs2_rm] at h
  have hop := congrArg opcodeField h
  have h7 := congrArg funct7Field h
  have h2 := congrArg rs2Field h
  simp only [Laws.opcodeField_rType, Laws.funct7Field_rType, Laws.rs2Field_rType] at hop h7 h2
  refine ⟨mk (rdOf w) (rs1Of w) (rmOfWord w), ?_, hrow _ _ _⟩
  rw [henc, ← hop, ← h7, ← h2, rmOfWord, rmBits_rmOf]
  exact word_eq_rType w

theorem word_eq_r4Type (w : InstWord) :
    r4Type (rs3Field w) (funct2Field w) (rs2Field w) (rs1Field w) (funct3Field w) (rdField w) (opcodeField w) = w :=
  r4Type_eq_of_fields rfl rfl rfl rfl rfl rfl rfl

theorem exists_encode_of_mask_funct2 {mk : Fin 32 → Fin 32 → Fin 32 → Fin 32 → Rm → Instr} {a b c d : Fin 32} {m : Rm}
    (henc : ∀ rd rs1 rs2 rs3 rm, encode (mk rd rs1 rs2 rs3 rm) =
      r4Type (regBits rs3) funct2 (regBits rs2) (regBits rs1) (rmBits rm) (regBits rd) opcode)
    (hrow : ∀ rd rs1 rs2 rs3 rm, (mk rd rs1 rs2 rs3 rm).row = (mk a b c d m).row)
    (h : w &&& 0x0600007F#32 = r4Type 0 funct2 0 0 0 0 opcode) :
    ∃ i : Instr, encode i = w ∧ i.row = (mk a b c d m).row := by
  rw [← word_eq_r4Type w, Laws.r4Type_mask] at h
  have hop := congrArg opcodeField h
  have hf := congrArg funct2Field h
  simp only [Laws.opcodeField_r4Type, Laws.funct2Field_r4Type] at hop hf
  refine ⟨mk (rdOf w) (rs1Of w) (rs2Of w) (rs3Of w) (rmOfWord w), ?_, hrow _ _ _ _ _⟩
  rw [henc, ← hop, ← hf, rmOfWord, rmBits_rmOf]
  exact word_eq_r4Type w

theorem word_eq_iType (w : InstWord) :
    iType (immIField w) (rs1Field w) (funct3Field w) (rdField w) (opcodeField w) = w :=
  iType_eq_of_fields rfl rfl rfl rfl rfl

theorem exists_encode_of_mask_load {mk : FReg → XReg → BitVec 12 → Instr} {a : FReg} {b : XReg} {c : BitVec 12}
    (henc : ∀ rd rs1 imm, encode (mk rd rs1 imm) = iType imm (regBits rs1) funct3 (regBits rd) opcode)
    (hrow : ∀ rd rs1 imm, (mk rd rs1 imm).row = (mk a b c).row)
    (h : w &&& 0x0000707F#32 = iType 0 0 funct3 0 opcode) :
    ∃ i : Instr, encode i = w ∧ i.row = (mk a b c).row := by
  rw [← word_eq_iType w, Laws.iType_mask] at h
  have hop := congrArg opcodeField h
  have h3 := congrArg funct3Field h
  simp only [Laws.opcodeField_iType, Laws.funct3Field_iType] at hop h3
  refine ⟨mk (rdOf w) (rs1Of w) (immIField w), ?_, hrow _ _ _⟩
  rw [henc, ← hop, ← h3]
  exact word_eq_iType w

theorem word_eq_sType (w : InstWord) :
    sType (immSField w) (rs2Field w) (rs1Field w) (funct3Field w) (opcodeField w) = w :=
  sType_eq_of_fields rfl rfl rfl rfl rfl

theorem exists_encode_of_mask_store {mk : FReg → XReg → BitVec 12 → Instr} {a : FReg} {b : XReg} {c : BitVec 12}
    (henc : ∀ rs2 rs1 imm, encode (mk rs2 rs1 imm) = sType imm (regBits rs2) (regBits rs1) funct3 opcode)
    (hrow : ∀ rs2 rs1 imm, (mk rs2 rs1 imm).row = (mk a b c).row)
    (h : w &&& 0x0000707F#32 = sType 0 0 0 funct3 opcode) :
    ∃ i : Instr, encode i = w ∧ i.row = (mk a b c).row := by
  rw [← word_eq_sType w, Laws.sType_mask] at h
  have hop := congrArg opcodeField h
  have h3 := congrArg funct3Field h
  simp only [Laws.opcodeField_sType, Laws.funct3Field_sType] at hop h3
  refine ⟨mk (rs2Of w) (rs1Of w) (immSField w), ?_, hrow _ _ _⟩
  rw [henc, ← hop, ← h3]
  exact word_eq_sType w

end Rows

theorem exists_encode_of_matches {w : InstWord} (i : Instr) (h : w &&& i.row.mask = i.row.pattern) :
    ∃ j : Instr, encode j = w ∧ j.row = i.row := by
  cases i with
  | mul | mulh | mulhsu | mulhu | div | divu | rem | remu | mulw | divw | divuw | remw | remuw
  | fminS | fmaxS | fminD | fmaxD | feqS | fltS | fleS | feqD | fltD | fleD
  | fsgnjS | fsgnjnS | fsgnjxS | fsgnjD | fsgnjnD | fsgnjxD =>
    exact exists_encode_of_mask_funct3 (fun _ _ _ => rfl) (fun _ _ _ => rfl) h
  | flw | fld => exact exists_encode_of_mask_load (fun _ _ _ => rfl) (fun _ _ _ => rfl) h
  | fsw | fsd => exact exists_encode_of_mask_store (fun _ _ _ => rfl) (fun _ _ _ => rfl) h
  | fmaddS | fmsubS | fnmsubS | fnmaddS | fmaddD | fmsubD | fnmsubD | fnmaddD =>
    exact exists_encode_of_mask_funct2 (fun _ _ _ _ _ => rfl) (fun _ _ _ _ _ => rfl) h
  | faddS | fsubS | fmulS | fdivS | faddD | fsubD | fmulD | fdivD =>
    exact exists_encode_of_mask_rm (fun _ _ _ _ => rfl) (fun _ _ _ _ => rfl) h
  | fsqrtS | fsqrtD | fcvtWS | fcvtWUS | fcvtLS | fcvtLUS | fcvtSW | fcvtSWU | fcvtSL | fcvtSLU
  | fcvtWD | fcvtWUD | fcvtLD | fcvtLUD | fcvtDW | fcvtDWU | fcvtDL | fcvtDLU | fcvtSD | fcvtDS =>
    exact exists_encode_of_mask_rs2_rm (fun _ _ _ => rfl) (fun _ _ _ => rfl) h
  | fclassS | fclassD | fmvXW | fmvWX | fmvXD | fmvDX =>
    exact exists_encode_of_mask_rs2_funct3 (fun _ _ => rfl) (fun _ _ => rfl) h

theorem encode_matches_row (i : Instr) : encode i &&& i.row.mask = i.row.pattern := by
  cases i with
  | mul | mulh | mulhsu | mulhu | div | divu | rem | remu | mulw | divw | divuw | remw | remuw
  | fminS | fmaxS | fminD | fmaxD | feqS | fltS | fleS | feqD | fltD | fleD
  | fsgnjS | fsgnjnS | fsgnjxS | fsgnjD | fsgnjnD | fsgnjxD =>
    exact (Laws.rType_mask_funct3 _ _ _ _ _ _).trans rfl
  | flw | fld => exact (Laws.iType_mask _ _ _ _ _).trans rfl
  | fsw | fsd => exact (Laws.sType_mask _ _ _ _ _).trans rfl
  | fmaddS | fmsubS | fnmsubS | fnmaddS | fmaddD | fmsubD | fnmsubD | fnmaddD =>
    exact (Laws.r4Type_mask _ _ _ _ _ _ _).trans rfl
  | faddS | fsubS | fmulS | fdivS | faddD | fsubD | fmulD | fdivD => exact (Laws.rType_mask_rm _ _ _ _ _ _).trans rfl
  | fsqrtS | fsqrtD | fcvtWS | fcvtWUS | fcvtLS | fcvtLUS | fcvtSW | fcvtSWU | fcvtSL | fcvtSLU
  | fcvtWD | fcvtWUD | fcvtLD | fcvtLUD | fcvtDW | fcvtDWU | fcvtDL | fcvtDLU | fcvtSD | fcvtDS =>
    exact (Laws.rType_mask_rs2_rm _ _ _ _ _ _).trans rfl
  | fclassS | fclassD | fmvXW | fmvWX | fmvXD | fmvDX => exact (Laws.rType_mask_rs2_funct3 _ _ _ _ _ _).trans rfl

/-- Every row of the table is the row of an instruction. -/
theorem exists_instr_of_mem_opcodeRows : ∀ r ∈ opcodeRows, ∃ i : Instr, i.row = r := by
  simp only [opcodeRows, List.forall_mem_append, List.forall_mem_cons, exists_apply_eq_apply, List.not_mem_nil,
    false_imp_iff, implies_true, and_true]

theorem exists_decode_of_matches {w : InstWord} {r : Row} (hr : r ∈ opcodeRows) (h : w &&& r.mask = r.pattern) :
    ∃ i, decode w = .ok i ∧ i.row = r := by
  obtain ⟨i, rfl⟩ := exists_instr_of_mem_opcodeRows r hr
  obtain ⟨j, rfl, hj⟩ := exists_encode_of_matches i h
  exact ⟨j, decode_encode j, hj⟩

/-- Settles O4: a decoded word is an encoding, which matches its row; a matching word is an encoding of an instruction of
that row; and two matching rows are the row of the one instruction that is decoded. -/
theorem decodesExactlyTheTable : Obligations.DecodesExactlyTheTable := by
  refine fun w => ⟨fun i hi => ⟨?_, fun r hr hw => ?_⟩, fun r hr => exists_decode_of_matches hr⟩
  · rw [← encode_of_decode hi]
    exact encode_matches_row i
  · obtain ⟨j, hj, rfl⟩ := exists_decode_of_matches hr hw
    cases hi.symm.trans hj
    rfl

/-! ### One step (00_scope.md rules R3, R4) -/

theorem step_of_offer {s : State} {o : Offer} {rest : List Offer} (h : s.offers = o :: rest) :
    step s = transact o.word (s.begin o rest) := by
  rw [step, h]

theorem step_of_no_offer {s : State} (h : s.offers = []) : step s = .refused .noWordOffered := by
  rw [step, h]

/-- Settles O5: the two cases of the caller's queue. -/
theorem stepRunsDecodedWord : Obligations.StepRunsDecodedWord := by
  refine ⟨fun s o rest i hoffers hdecode => ?_, fun s => step_of_no_offer⟩
  rw [step_of_offer hoffers, transact_of_decode_ok hdecode, State.begin]

/-- Settles O6: the word handed over is the head of the queue, and it decodes to its instruction. -/
theorem handedOverWordRunsNext : Obligations.HandedOverWordRunsNext := by
  intro s i
  have hword : BitVec.ofNat 32 ((encode i).toNat % 2 ^ 32) = encode i := by
    rw [BitVec.toNat_mod_cancel, BitVec.ofNat_toNat, BitVec.setWidth_eq]
  rw [step_of_offer (s.withFetchWord_offers 32 _), hword, transact_of_decode_ok (decode_encode i)]
  rfl

/-- Settles O1: the decoder computes the eighteen words. -/
theorem decodesSpecWords : Obligations.DecodesSpecWords := by
  refine ⟨?_, ?_, ?_, ?_, ?_, ?_, ?_, ?_, ?_, ?_, ?_, ?_, ?_, ?_, ?_, ?_, ?_, ?_⟩ <;> decide

end Sys2Proof.Machine

namespace Sys2Proof.Machine

/-! ### The invariant of the machine (10_state.md rules R20, R21, R30) -/

theorem Inv_reset : State.reset.Inv := ⟨reset_memory_wf, rfl, nofun⟩

/-- Settles O12: memory is empty, every register is zero and the hart is RV64. -/
theorem resetMeetsInvariant : Obligations.ResetMeetsInvariant := ⟨Inv_reset, State.reset.readX_zero⟩

/-! Each update of the state keeps the invariant: a register write and the next PC go through `wrapX`, a memory operation
keeps the canonical form, and no other update touches what the invariant reads. -/

section Updates
variable {s : State}

theorem State.Inv.congr {t : State} (h : s.Inv) (hmem : t.mem = s.mem) (hx : t.x = s.x) (hrv : t.rv = s.rv)
    (hpc : t.pc = s.pc) : t.Inv := by
  rwa [State.Inv, hmem, hx, hrv, hpc]

theorem State.Inv.withMem (h : s.Inv) {m : Memory} (hm : m.wf = true) : State.Inv { s with mem := m } :=
  ⟨hm, h.2⟩

theorem State.Inv.writeX (h : s.Inv) (rd : XReg) (v : Word) : (s.writeX rd v).Inv := by
  obtain ⟨hmem, hzero, hbound⟩ := h
  unfold State.writeX
  split_ifs with hrd
  · exact ⟨hmem, hzero, hbound⟩
  · have hval : rd.val ≠ 0 := fun h0 => hrd (Fin.ext h0)
    refine ⟨hmem, ?_, fun hrv => ⟨fun r => ?_, (hbound hrv).2⟩⟩
    · simp [hval, hzero]
    · have hreg := (hbound hrv).1 r
      have hlt := wrapX_lt s.rv v
      simp only [Fin.getElem_fin, Vector.getElem_set] at hreg ⊢
      split_ifs
      · have hrv' : s.rv = .rv32 := hrv
        rwa [hrv'] at hlt ⊢
      · exact hreg

theorem State.Inv.writeFp (h : s.Inv) (F : Fmt) (rd : FReg) (v : BitVec F.width) : (s.writeFp F rd v).Inv :=
  h.congr (by simp) (by simp) (by simp) (by simp)

theorem State.Inv.accrue (h : s.Inv) (fl : FpFlags) : (s.accrue fl).Inv :=
  h.congr rfl rfl rfl rfl

theorem State.Inv.retire (h : s.Inv) : s.retire.Inv := by
  obtain ⟨hmem, hzero, hbound⟩ := h
  refine ⟨hmem, hzero, fun hrv => ⟨(hbound hrv).1, ?_⟩⟩
  have hlt := wrapX_lt s.rv s.npc
  rw [State.retire_rv] at hrv
  rw [hrv] at hlt
  rw [State.retire_pc, hrv]
  exact hlt

end Updates

theorem Effect.inv {i : Instr} {s t : State} (h : Effect i s t) (hs : s.Inv) : t.Inv := by
  have htouch (ts : List Touch) : (s.mem.touch ts).wf = true := Memory.wf_touch hs.1 ts
  cases h with
  | illegal => exact hs.congr rfl rfl rfl rfl
  | writesX rd v fl => exact ((hs.writeX rd v).accrue fl).retire
  | writesF F rd v fl => exact ((hs.writeFp F rd v).accrue fl).retire
  | loads F rd v ts => exact ((hs.withMem (htouch ts)).writeFp F rd v).retire
  | stores pa n v ts => exact (hs.withMem (Memory.wf_storeLE (htouch ts) pa n v)).retire
  | traps code ea ts => exact (hs.withMem (htouch ts)).congr rfl rfl rfl rfl

/-- What a step that answers a next state did: the effect of an instruction, or the illegal outcome of a word that is
none. -/
theorem step_cases {s t : State} (h : step s = .next t) :
    ∃ o rest, s.offers = o :: rest ∧
      ((∃ i, Effect i (s.begin o rest) t) ∨ t = { s.begin o rest with legal := false }) := by
  cases ho : s.offers with
  | nil => rw [step_of_no_offer ho] at h; cases h
  | cons o rest =>
    rw [step_of_offer ho] at h
    refine ⟨o, rest, rfl, ?_⟩
    cases hd : decode o.word with
    | ok i => rw [transact_of_decode_ok hd] at h; exact .inl ⟨i, exec_effect h⟩
    | error e => rw [transact_of_decode_error hd] at h; cases h; exact .inr rfl

/-- Settles O13: taking a word and every effect of a meaning keep the invariant. -/
theorem stepKeepsInvariant : Obligations.StepKeepsInvariant := by
  intro s t hs h
  obtain ⟨o, rest, -, ⟨i, heffect⟩ | rfl⟩ := step_cases h
  · exact heffect.inv (hs.congr rfl rfl rfl rfl)
  · exact hs.congr rfl rfl rfl rfl

/-! ### The canonical form of memory (20_memory.md rule R50) -/

theorem Memory.read_head (c : Host.Cell) (m : Memory) : Memory.read (c :: m) c.1 = c.2 := by
  simp [Memory.read]

theorem Memory.read_below_head {c : Host.Cell} {m : Memory} (hw : Memory.wf (c :: m) = true) {a : Nat} (ha : a < c.1) :
    Memory.read (c :: m) a = Config.unlistedByte := by
  obtain ⟨-, -, habove, -⟩ := (Memory.wf_cons c m).1 hw
  apply Memory.read_of_above
  rintro d (_ | ⟨_, hd⟩)
  · exact ha
  · exact ha.trans (habove d hd)

/-- The first entry of a canonical memory shows in its reads, so no memory that reads the same starts above it. -/
theorem Memory.head_le_of_reads {c d : Host.Cell} {m n : Memory} (hm : Memory.wf (c :: m) = true)
    (hn : Memory.wf (d :: n) = true) (h : ∀ a, Memory.read (c :: m) a = Memory.read (d :: n) a) : d.1 ≤ c.1 := by
  by_contra hlt
  have hread := h c.1
  rw [Memory.read_head, Memory.read_below_head hn (by omega)] at hread
  obtain ⟨-, hc, -⟩ := (Memory.wf_cons c m).1 hm
  exact hc hread

theorem Memory.reads_nil_ne {c : Host.Cell} {m : Memory} (hm : Memory.wf (c :: m) = true) :
    ∃ a, Memory.read (c :: m) a ≠ Memory.read [] a := by
  obtain ⟨-, hc, -⟩ := (Memory.wf_cons c m).1 hm
  exact ⟨c.1, by rwa [Memory.read_head, Memory.read_nil]⟩

theorem Memory.eq_of_reads {m n : Memory} (hm : m.wf = true) (hn : n.wf = true) (h : ∀ a, m.read a = n.read a) :
    m = n := by
  induction m generalizing n with
  | nil =>
    cases n with
    | nil => rfl
    | cons d n => obtain ⟨a, ha⟩ := Memory.reads_nil_ne hn; exact absurd (h a).symm ha
  | cons c m ih =>
    cases n with
    | nil => obtain ⟨a, ha⟩ := Memory.reads_nil_ne hm; exact absurd (h a) ha
    | cons d n =>
      have haddr : c.1 = d.1 :=
        le_antisymm (Memory.head_le_of_reads hn hm fun a => (h a).symm) (Memory.head_le_of_reads hm hn h)
      have hbyte : c.2 = d.2 := by
        have hread := h c.1
        rwa [Memory.read_head, haddr, Memory.read_head] at hread
      obtain ⟨-, -, hmabove, hmtail⟩ := (Memory.wf_cons c m).1 hm
      obtain ⟨-, -, hnabove, hntail⟩ := (Memory.wf_cons d n).1 hn
      have htail (a : Nat) : Memory.read m a = Memory.read n a := by
        by_cases ha : c.1 = a
        · rw [← ha, Memory.read_of_above hmabove, haddr, Memory.read_of_above hnabove]
        · have hread := h a
          rwa [Memory.read, Memory.read, if_neg ha, if_neg (haddr ▸ ha)] at hread
      rw [Prod.ext haddr hbyte, ih hmtail hntail htail]

/-- Settles O14, by induction on both lists. -/
theorem canonicalMemoryIsItsReads : Obligations.CanonicalMemoryIsItsReads := fun _ _ => Memory.eq_of_reads

/-! ### What an effect leaves of fflags, the PC and x0 -/

section Effects
variable {i : Instr} {s t : State}

/-- Only a completed write of a register accrues flags. -/
theorem Effect.fflags (h : Effect i s t) :
    t.fflags = s.fflags ∨ isMemory i = false ∧ ∃ fl, t.fflags = s.fflags ||| fl := by
  cases h with
  | illegal => exact .inl rfl
  | writesX _ _ fl _ mem => exact .inr ⟨mem, fl, by simp⟩
  | writesF _ _ _ fl _ mem => exact .inr ⟨mem, fl, by simp⟩
  | loads => exact .inl (by simp)
  | stores => exact .inl rfl
  | traps => exact .inl rfl

theorem Effect.fflags_grow (h : Effect i s t) : s.fflags &&& t.fflags = s.fflags := by
  obtain heq | ⟨-, fl, heq⟩ := h.fflags
  · rw [heq, BitVec.and_self]
  · rw [heq, bitVec_and_or_self]

theorem pcAdvanced_retire {u : State} (hpc : u.pc = s.pc) (hrv : u.rv = s.rv) (hisC : u.isC = s.isC) :
    PcAdvanced s u.retire := by
  have hread : u.readPc = s.readPc := by rw [State.readPc, State.readPc, hpc, hrv]
  rw [PcAdvanced, State.readPc_retire, State.npc_toNat, hread, hrv, hisC]

/-- The PC stays on an illegal word and on a trap, and advances otherwise. -/
theorem Effect.pc (h : Effect i s t) :
    PcAdvanced s t ∨ t.pc = s.pc ∧ (t.legal = false ∨ isMemory i = true) := by
  cases h with
  | illegal => exact .inr ⟨rfl, .inl rfl⟩
  | writesX | writesF | loads => exact .inl (pcAdvanced_retire (by simp) (by simp) (by simp))
  | stores => exact .inl (pcAdvanced_retire rfl rfl rfl)
  | traps _ _ _ mem => exact .inr ⟨rfl, .inr mem⟩

theorem Effect.readX (h : Effect i s t) {r : XReg} (hr : destOf i ≠ .x r) : t.readX r = s.readX r := by
  cases h with
  | illegal | stores | traps => rfl
  | writesX rd v _ dest =>
    have hne : r ≠ rd := fun e => hr (e ▸ dest)
    exact s.readX_writeX_other hne v
  | writesF | loads => exact State.readX_congr (by simp) (by simp) r

theorem Effect.readF (h : Effect i s t) {r : FReg} (hr : ∀ F, destOf i ≠ .f F r) : t.readF r = s.readF r := by
  cases h with
  | illegal | stores | traps => rfl
  | writesX rd v => exact s.readF_writeX rd v r
  | writesF F rd v _ dest | loads F rd v _ dest =>
    have hne : r ≠ rd := fun e => hr F (e ▸ dest)
    exact State.readF_writeFp_other _ hne v

theorem Effect.sameX_of_dest_x0 (h : Effect i s t) (hd : destOf i = .x 0) : SameX s t := by
  intro r
  by_cases hr : r = 0
  · rw [hr, State.readX_zero, State.readX_zero]
  · exact h.readX fun e => hr (by cases hd.symm.trans e; rfl)

theorem Effect.trapRecord_of_not_memory (h : Effect i s t) (hm : isMemory i = false) :
    t.mcause = s.mcause ∧ t.mtval = s.mtval ∧ t.mem = s.mem := by
  cases h with
  | illegal => exact ⟨rfl, rfl, rfl⟩
  | writesX | writesF => simp
  | loads _ _ _ _ _ mem | stores _ _ _ _ _ mem | traps _ _ _ mem => cases hm.symm.trans mem

/-- The elements that no instruction writes. -/
theorem Effect.fixed (h : Effect i s t) :
    t.rv = s.rv ∧ t.misa = s.misa ∧ t.frm = s.frm ∧ t.host = s.host ∧ t.offers = s.offers ∧ t.isC = s.isC := by
  cases h with
  | illegal | stores | traps => exact ⟨rfl, rfl, rfl, rfl, rfl, rfl⟩
  | writesX | writesF | loads => simp

end Effects

/-- Settles O15: an effect adds flags or leaves them, and a word that is no instruction leaves them. -/
theorem flagsOnlyGrow : Obligations.FlagsOnlyGrow := by
  intro s t h
  obtain ⟨o, rest, -, ⟨i, heffect⟩ | rfl⟩ := step_cases h
  · exact heffect.fflags_grow
  · exact BitVec.and_self

/-- Settles O17. -/
theorem pcAdvancesByRule : Obligations.PcAdvancesByRule := by
  intro i s t h
  refine ⟨fun hlegal hmem => ?_, fun _ => ?_, fun hlegal => ?_⟩
  · obtain hpc | ⟨-, hfalse | hmem'⟩ := (exec_effect h).pc
    · exact hpc
    · cases hlegal.symm.trans hfalse
    · cases hmem.symm.trans hmem'
  · exact (exec_effect h).pc.imp_right And.left
  · rw [exec_eq_of_legal_false h hlegal]

/-- Settles O18: the accessor reads x0 as zero, and x0 is the only register that an instruction with destination x0 could
write. -/
theorem x0IsHardwired : Obligations.X0IsHardwired :=
  fun _ _ t h => ⟨t.readX_zero, (exec_effect h).sameX_of_dest_x0⟩

/-! ### Memory after a load or a store (20_memory.md rule R52, 47_fp_load_store.md rules R280 to R285) -/

section MemoryFrames
variable {i : Instr} {s t : State} {F : Fmt} {w : MemWidth} {ea v : Word} {fr : FReg} {g : Word → BitVec F.width}

/-- A load leaves memory as its translation left it, on each of its three ways out. -/
theorem loadThen_mem (h : loadThen s w ea (fun v s' => finishF s' F fr (g v)) = .next t) :
    (∃ pa s1, translate s .load ea = .ok pa s1 ∧ t.mem = s1.mem) ∨
      ∃ code s1, translate s .load ea = .error code s1 ∧ t.mem = s1.mem := by
  rcases andThen_next h with ⟨pa, s1, ht, h⟩ | ⟨code, s1, ht, h⟩
  · refine .inl ⟨pa, s1, ht, ?_⟩
    rcases andThen_next h with ⟨v, s2, hr, hfinish⟩ | ⟨code, s2, hr, htrap⟩
    · obtain ⟨rfl, -⟩ := memRead_ok hr
      cases hfinish; simp
    · obtain rfl := memRead_error hr
      cases htrap; rfl
  · cases h; exact .inr ⟨code, s1, ht, rfl⟩

/-- A store leaves memory as its translation left it, but for the bytes it stores where its host call succeeds. -/
theorem storeThen_mem (h : storeThen s w ea v = .next t) :
    (∃ pa s1, translate s .store ea = .ok pa s1 ∧
      (t.mem = s1.mem ∨ t.mem = s1.mem.storeLE pa w.bytes v.toNat)) ∨
      ∃ code s1, translate s .store ea = .error code s1 ∧ t.mem = s1.mem := by
  rcases andThen_next h with ⟨pa, s1, ht, h⟩ | ⟨code, s1, ht, h⟩
  · refine .inl ⟨pa, s1, ht, ?_⟩
    rcases andThen_next h with ⟨r, s2, hw, hfinish⟩ | ⟨code, s2, hw, htrap⟩
    · obtain rfl := memWrite_ok hw
      cases hfinish; exact .inr rfl
    · obtain rfl := memWrite_error hw
      cases htrap; exact .inl rfl
  · cases h; exact .inr ⟨code, s1, ht, rfl⟩

theorem sameMemory_of_legal_false (h : exec i s = .next t) (hl : t.legal = false) : SameMemory s t := by
  rw [exec_eq_of_legal_false h hl]
  exact fun _ => rfl

/-- A meaning that is guarded by feature bits and answers `legal` ran what stands behind the guard. -/
theorem of_requireFormat_legal {k : Result} (h : requireFormat s F k = .next t) (hl : t.legal = true) :
    k = .next t := by
  cases hF : s.hasFormat F with
  | true => rwa [requireFormat_true hF] at h
  | false => rw [requireFormat_false hF] at h; cases h; cases hl

theorem memoryFrame_load (hi : exec i s = requireFormat s F (loadThen s w ea fun v s' => finishF s' F fr (g v)))
    (h : exec i s = .next t) : MemoryFrame s t .load w.bytes ea where
  illegal := sameMemory_of_legal_false h
  translated hl pa s1 ht a _ := by
    rcases loadThen_mem (of_requireFormat_legal (hi ▸ h) hl) with ⟨pa', s1', ht', hmem⟩ | ⟨code, s1', ht', -⟩
    · cases ht.symm.trans ht'
      rw [hmem]
    · cases ht.symm.trans ht'
  failed hl code s1 ht a := by
    rcases loadThen_mem (of_requireFormat_legal (hi ▸ h) hl) with ⟨pa', s1', ht', -⟩ | ⟨code', s1', ht', hmem⟩
    · cases ht.symm.trans ht'
    · cases ht.symm.trans ht'
      rw [hmem]

theorem memoryFrame_store (hi : exec i s = requireFormat s F (storeThen s w ea v)) (h : exec i s = .next t) :
    MemoryFrame s t .store w.bytes ea where
  illegal := sameMemory_of_legal_false h
  translated hl pa s1 ht a ha := by
    rcases storeThen_mem (of_requireFormat_legal (hi ▸ h) hl) with ⟨pa', s1', ht', hmem | hmem⟩ | ⟨code, s1', ht', -⟩
    · cases ht.symm.trans ht'
      rw [hmem]
    · cases ht.symm.trans ht'
      rw [hmem]
      exact Memory.read_storeLE_other _ _ _ _ (ha rfl)
    · cases ht.symm.trans ht'
  failed hl code s1 ht a := by
    rcases storeThen_mem (of_requireFormat_legal (hi ▸ h) hl) with ⟨pa', s1', ht', -⟩ | ⟨code', s1', ht', hmem⟩
    · cases ht.symm.trans ht'
    · cases ht.symm.trans ht'
      rw [hmem]

end MemoryFrames

theorem translate_inactive {s : State} (hvm : s.host.vmActive = false) (kind : Access) (ea : Word) :
    translate s kind ea = .ok ea s := by
  simp [translate, hvm]

/-- With VM inactive a load that answers leaves every byte. -/
theorem MemoryFrame.sameMemory_of_inactive {s t : State} {n : Nat} {ea : Word} (h : MemoryFrame s t .load n ea)
    (hvm : s.host.vmActive = false) : SameMemory s t := by
  cases hl : t.legal with
  | false => exact h.illegal hl
  | true => exact fun a => h.translated hl ea s (translate_inactive hvm .load ea) a nofun

section
variable {s t : State} {fr : FReg} {rs1 : XReg} {imm : BitVec 12}

theorem memoryFrame_flw (h : exec (.flw fr rs1 imm) s = .next t) : MemoryFrame s t .load 4 (addressOf s rs1 imm) := by
  rw [← effectiveAddress_eq_addressOf]
  exact memoryFrame_load (F := .S) (w := .word) (g := low32) rfl h

theorem memoryFrame_fld (h : exec (.fld fr rs1 imm) s = .next t) : MemoryFrame s t .load 8 (addressOf s rs1 imm) := by
  rw [← effectiveAddress_eq_addressOf]
  exact memoryFrame_load (F := .D) (w := .double) (g := fun v => v) rfl h

theorem memoryFrame_fsw (h : exec (.fsw fr rs1 imm) s = .next t) :
    MemoryFrame s t .store 4 (addressOf s rs1 imm) := by
  rw [← effectiveAddress_eq_addressOf]
  exact memoryFrame_store (w := .word) rfl h

theorem memoryFrame_fsd (h : exec (.fsd fr rs1 imm) s = .next t) :
    MemoryFrame s t .store 8 (addressOf s rs1 imm) := by
  rw [← effectiveAddress_eq_addressOf]
  exact memoryFrame_store (w := .double) rfl h

end

/-- A memory instruction with a destination register is a load. -/
theorem sameMemory_of_dest {i : Instr} {s t : State} (h : exec i s = .next t) (hd : destOf i ≠ .none)
    (hvm : s.host.vmActive = false) : SameMemory s t := by
  cases hmem : isMemory i with
  | false => exact fun a => by rw [((exec_effect h).trapRecord_of_not_memory hmem).2.2]
  | true =>
    cases i with
    | flw => exact (memoryFrame_flw h).sameMemory_of_inactive hvm
    | fld => exact (memoryFrame_fld h).sameMemory_of_inactive hvm
    | fsw | fsd => exact absurd rfl hd
    | _ => cases hmem

/-- Settles O16: what `exec_effect` leaves of each element, and for the bytes of memory the four memory instructions one by
one. -/
theorem onlyTheListedElementsChange : Obligations.OnlyTheListedElementsChange := by
  intro i s t h
  have heffect := exec_effect h
  refine ⟨fun r => heffect.readX, fun r => heffect.readF, fun hmem => ?_, fun hmem => ?_, sameMemory_of_dest h,
    ?_, ?_, ?_, ?_, heffect.fixed⟩
  · obtain heq | ⟨hmem', -⟩ := heffect.fflags
    · exact heq
    · cases hmem.symm.trans hmem'
  · obtain ⟨hcause, htval, heq⟩ := heffect.trapRecord_of_not_memory hmem
    exact ⟨hcause, htval, fun a => by rw [heq]⟩
  · rintro fr rs1 imm rfl; exact memoryFrame_flw h
  · rintro fr rs1 imm rfl; exact memoryFrame_fld h
  · rintro fr rs1 imm rfl; exact memoryFrame_fsw h
  · rintro fr rs1 imm rfl; exact memoryFrame_fsd h

end Sys2Proof.Machine

namespace Sys2Proof.Machine

/-! ### The guards before every meaning (60_exceptions.md rule R301) -/

/-- Settles O10: the 64 pairs of codes, computed. -/
theorem roundingModeResolution : Obligations.RoundingModeResolution := by
  unfold Obligations.RoundingModeResolution
  decide

theorem rmLegal_eq_isSome (rm : Rm) : ∀ frm, rmLegal rm frm = (roundingModeCheck rm frm).isSome := by
  cases rm <;> decide

/-- The rounding mode, where the row has one. -/
def guardMode (rm : Option Rm) (s : State) (k : Mode → Result) : Result :=
  match rm with
  | none => k .rne
  | some rm => requireMode s rm k

/-- The feature bits, where the row needs them. -/
def guardFormat (F : Option Fmt) (s : State) (k : Result) : Result :=
  match F with
  | none => k
  | some F => requireFormat s F k

/-- RV64, where the row needs it. -/
def guardRv64 (rv64 : Bool) (s : State) (k : Result) : Result := if rv64 then requireRv64 s k else k

/-- The guards in the order in which every meaning asks them. -/
def guarded (rv64 : Bool) (F : Option Fmt) (rm : Option Rm) (s : State) (k : Mode → Result) : Result :=
  guardRv64 rv64 s (guardFormat F s (guardMode rm s k))

theorem guardFormat_illegal (F : Option Fmt) (s : State) : guardFormat F s (illegal s) = illegal s := by
  cases F with
  | none => rfl
  | some F => exact ite_self _

theorem guardRv64_illegal (rv64 : Bool) (s : State) : guardRv64 rv64 s (illegal s) = illegal s := by
  cases rv64 with
  | false => rfl
  | true => exact ite_self _

/-- What the guards of an instruction ask. -/
structure GuardsPass (i : Instr) (s : State) : Prop where
  rv64 : needsRv64 i = true → s.rv = .rv64
  format : ∀ F, needsFormat i = some F → s.hasFormat F = true
  mode : ∀ rm, i.rmField = some rm → rmLegal rm s.frm = true

theorem legalIn_iff (i : Instr) (s : State) : legalIn i s = true ↔ GuardsPass i s := by
  have hformat : (match needsFormat i with
      | none => true
      | some .S => s.misa.getLsbD 5
      | some .D => s.misa.getLsbD 5 && s.misa.getLsbD 3) = true ↔
      ∀ F, needsFormat i = some F → s.hasFormat F = true := by
    cases needsFormat i with
    | none => simp
    | some F => cases F <;> simp [hasFormat_S, hasFormat_D]
  have hrv : (!needsRv64 i || decide (s.rv = .rv64)) = true ↔ (needsRv64 i = true → s.rv = .rv64) := by
    cases needsRv64 i <;> simp
  have hmode : (match i.rmField with
      | none => true
      | some rm => rmLegal rm s.frm) = true ↔ ∀ rm, i.rmField = some rm → rmLegal rm s.frm = true := by
    cases i.rmField <;> simp
  rw [legalIn, Bool.and_eq_true, Bool.and_eq_true, hrv]
  exact ⟨fun ⟨⟨hF, hrv⟩, hm⟩ => ⟨hrv, hformat.1 hF, hmode.1 hm⟩,
    fun h => ⟨⟨hformat.2 h.format, h.rv64⟩, hmode.2 h.mode⟩⟩

section Guards
variable {i : Instr} {s : State} {k : Mode → Result}

/-- Where the guards pass, the meaning runs under the effective mode. -/
theorem guarded_of_pass (h : GuardsPass i s) :
    ∃ mode, guarded (needsRv64 i) (needsFormat i) i.rmField s k = k mode := by
  obtain ⟨hrv, hformat, hmode⟩ := h
  have hpassMode : ∃ mode, guardMode i.rmField s k = k mode := by
    cases hrm : i.rmField with
    | none => exact ⟨.rne, rfl⟩
    | some rm =>
      have hsome := hmode rm hrm
      rw [rmLegal_eq_isSome] at hsome
      obtain ⟨mode, hcheck⟩ := Option.isSome_iff_exists.1 hsome
      exact ⟨mode, requireMode_some hcheck k⟩
  have hpassFormat (r : Result) : guardFormat (needsFormat i) s r = r := by
    cases hF : needsFormat i with
    | none => rfl
    | some F => exact requireFormat_true (hformat F hF) r
  have hpassRv64 (r : Result) : guardRv64 (needsRv64 i) s r = r := by
    unfold guardRv64
    split_ifs with h64
    · exact requireRv64_true (hrv h64) r
    · rfl
  obtain ⟨mode, hpassMode⟩ := hpassMode
  exact ⟨mode, by rw [guarded, hpassMode, hpassFormat, hpassRv64]⟩

/-- Where one of them fails, the answer is the illegal outcome: a guard before it either passes or says the same. -/
theorem guarded_of_not_pass (h : ¬ GuardsPass i s) :
    guarded (needsRv64 i) (needsFormat i) i.rmField s k = illegal s := by
  by_contra hne
  refine h ⟨fun h64 => ?_, fun F hF => ?_, fun rm hrm => ?_⟩
  · by_contra hrv
    exact hne (by rw [guarded, guardRv64, if_pos h64, requireRv64_false hrv])
  · by_contra hformat
    rw [Bool.not_eq_true] at hformat
    exact hne (by rw [guarded, hF, guardFormat, requireFormat_false hformat, guardRv64_illegal])
  · by_contra hmode
    rw [rmLegal_eq_isSome, Option.not_isSome_iff_eq_none] at hmode
    exact hne (by rw [guarded, hrm, guardMode, requireMode_none hmode, guardFormat_illegal, guardRv64_illegal])

end Guards

/-- What a meaning answers behind its guards: a legal next state, or for a memory instruction the fault of a host call
that never returns. -/
inductive LegalAnswer (i : Instr) : Result → Prop
  | next {t : State} (h : t.legal = true) : LegalAnswer i (.next t)
  | stuck (h : isMemory i = true) : LegalAnswer i (.fault .hostCallNeverReturns)

theorem LegalAnswer.andThen {i : Instr} (hm : isMemory i = true) {a : HostAnswer} {ea : Word}
    {k : Word → State → Result} (hk : ∀ v s, LegalAnswer i (k v s)) : LegalAnswer i (a.andThen ea k) := by
  cases a with
  | ok v s => exact hk v s
  | error code s => exact .next rfl
  | noReturn => exact .stuck hm

theorem LegalAnswer.loadThen {i : Instr} (hm : isMemory i = true) {s : State} {w : MemWidth} {ea : Word}
    {k : Word → State → Result} (hk : ∀ v s, LegalAnswer i (k v s)) : LegalAnswer i (loadThen s w ea k) :=
  .andThen hm fun _ _ => .andThen hm hk

theorem LegalAnswer.storeThen {i : Instr} (hm : isMemory i = true) {s : State} {w : MemWidth} {ea v : Word} :
    LegalAnswer i (storeThen s w ea v) :=
  .andThen hm fun _ _ => .andThen hm fun _ _ => .next rfl

theorem exec_eq_guarded (i : Instr) (s : State) :
    ∃ k, exec i s = guarded (needsRv64 i) (needsFormat i) i.rmField s k ∧ ∀ mode, LegalAnswer i (k mode) := by
  cases i with
  | flw | fld => exact ⟨fun _ => _, rfl, fun _ => .loadThen rfl fun _ _ => .next rfl⟩
  | fsw | fsd => exact ⟨fun _ => _, rfl, fun _ => .storeThen rfl⟩
  | mul | mulh | mulhsu | mulhu | div | divu | rem | remu | mulw | divw | divuw | remw | remuw
  | fminS | fmaxS | fminD | fmaxD | feqS | fltS | fleS | feqD | fltD | fleD | fclassS | fclassD
  | fsgnjS | fsgnjnS | fsgnjxS | fsgnjD | fsgnjnD | fsgnjxD | fmvXW | fmvWX | fmvXD | fmvDX =>
    exact ⟨fun _ => _, rfl, fun _ => .next rfl⟩
  | fmaddS | fmsubS | fnmsubS | fnmaddS | fmaddD | fmsubD | fnmsubD | fnmaddD
  | faddS | fsubS | fmulS | fdivS | fsqrtS | faddD | fsubD | fmulD | fdivD | fsqrtD
  | fcvtWS | fcvtWUS | fcvtLS | fcvtLUS | fcvtSW | fcvtSWU | fcvtSL | fcvtSLU
  | fcvtWD | fcvtWUD | fcvtLD | fcvtLUD | fcvtDW | fcvtDWU | fcvtDL | fcvtDLU | fcvtSD | fcvtDS =>
    exact ⟨_, rfl, fun _ => .next rfl⟩

theorem exec_of_guardsPass {i : Instr} {s : State} (h : GuardsPass i s) : LegalAnswer i (exec i s) := by
  obtain ⟨k, hexec, hk⟩ := exec_eq_guarded i s
  obtain ⟨mode, hmode⟩ := guarded_of_pass h
  rw [hexec, hmode]
  exact hk mode

theorem runsIllegal_of_not_guardsPass {i : Instr} {s : State} (h : ¬ GuardsPass i s) : RunsIllegal i s := by
  obtain ⟨k, hexec, -⟩ := exec_eq_guarded i s
  rw [RunsIllegal, hexec, guarded_of_not_pass h, illegal_eq]

/-- Settles O9: the list is the guards that stand before the meaning. -/
theorem legalExactlyByTheList : Obligations.LegalExactlyByTheList := by
  refine fun i s => ⟨fun h => runsIllegal_of_not_guardsPass ?_, fun h t ht => ?_⟩
  · rw [← legalIn_iff, h]
    exact Bool.false_ne_true
  · have hlegal := exec_of_guardsPass ((legalIn_iff i s).1 h)
    rw [ht] at hlegal
    cases hlegal with
    | next hl => exact hl

/-- Settles O11: an illegal instruction answers, and so does a legal one, but for the fault. -/
theorem everyInstructionAnswers : Obligations.EveryInstructionAnswers := by
  intro i s
  by_cases h : GuardsPass i s
  · have hlegal := exec_of_guardsPass h
    generalize exec i s = answer at hlegal
    cases hlegal with
    | next => exact .inl ⟨_, rfl⟩
    | stuck hm => exact .inr ⟨hm, rfl⟩
  · exact .inl ⟨_, runsIllegal_of_not_guardsPass h⟩

theorem decode_of_opcode_not_mem {w : InstWord}
    (h : (opcodeField w).toNat ∉ [0x33, 0x3B, 0x07, 0x27, 0x53, 0x43, 0x47, 0x4B, 0x4F]) :
    decode w = .error .opcode := by
  unfold decode
  split
  case h_10 => rfl
  all_goals next hop => simp [hop] at h

/-- Settles O7: words that decode to nothing have the illegal outcome, and each other condition is a guard that fails. -/
theorem illegalWordsWriteNothing : Obligations.IllegalWordsWriteNothing := by
  refine ⟨fun w s h => ?opcode, fun w s h => ?word, fun i s hF h => ?single, fun i s hF h => ?double,
    fun i s rm hrm h => ?mode, fun i s h64 h => ?rv32⟩
  case opcode => exact transact_of_decode_error (decode_of_opcode_not_mem h) s
  case word =>
    cases hd : decode w with
    | ok i => exact absurd hd (h i)
    | error e => exact transact_of_decode_error hd s
  case single => exact runsIllegal_of_not_guardsPass fun hg => h (hg.format .S hF)
  case double =>
    refine runsIllegal_of_not_guardsPass fun hg => h ?_
    have hformat := hg.format .D hF
    rwa [hasFormat_D, Bool.and_eq_true] at hformat
  case mode => exact runsIllegal_of_not_guardsPass fun hg => by cases h.symm.trans (hg.mode rm hrm)
  case rv32 => exact runsIllegal_of_not_guardsPass fun hg => by cases h.symm.trans (hg.rv64 h64)

/-! ### The M instructions (60_exceptions.md rule R304) -/

theorem of_needsFormat_none {i : Instr} (s : State) (h : needsFormat i = none) :
    isMemory i = false ∧ i.rmField = none ∧ raisedFlags i s = FpFlag.none := by
  cases i with
  | mul | mulh | mulhsu | mulhu | div | divu | rem | remu | mulw | divw | divuw | remw | remuw => exact ⟨rfl, rfl, rfl⟩
  | _ => cases h

/-- Settles O20: an M instruction accesses no memory, has no rounding mode and raises no flag, so its one guard is RV64,
and its answer writes a general register or nothing. -/
theorem integerArithmeticRaisesNothing : Obligations.IntegerArithmeticRaisesNothing := by
  intro i s hF
  obtain ⟨hmem, hrm, hflags⟩ := of_needsFormat_none s hF
  have hguards : GuardsPass i s ↔ (needsRv64 i = true → s.rv = .rv64) :=
    ⟨GuardsPass.rv64, fun h => ⟨h, by simp [hF], by simp [hrm]⟩⟩
  obtain ⟨t, ht⟩ | ⟨hmem', -⟩ := everyInstructionAnswers i s
  · obtain ⟨hcause, htval, -⟩ := (exec_effect ht).trapRecord_of_not_memory hmem
    refine ⟨t, ht, ?_, hcause, htval, ?_⟩
    · have hraises := exec_raises s hmem
      rw [ht, hflags] at hraises
      generalize hr : (Host.Outcome.next t : Result) = r at hraises
      cases hraises with
      | illegal => cases hr; rfl
      | writesX h | writesF h => cases hr; rw [h.fflags, FpFlag.none, BitVec.ofNat_eq_ofNat, BitVec.or_zero]
    · rw [← hguards]
      refine ⟨fun hl => ?_, fun hg => ?_⟩
      · by_contra hg
        cases ht.symm.trans (runsIllegal_of_not_guardsPass hg)
        cases hl
      · exact (legalExactlyByTheList i s).2 ((legalIn_iff i s).2 hg) t ht
  · cases hmem.symm.trans hmem'

end Sys2Proof.Machine

namespace Sys2Proof.Machine

/-! ### What an instruction does not read (00_scope.md rule R6)

`vary` changes misa, frm and is_C at once. Every operation of a meaning but the two guards and the next PC commutes with
it, so two runs whose guards agree differ in these elements and in the PC alone. -/

/-- The state with another misa, frm and is_C. -/
def State.vary (s : State) (misa : Word) (frm : BitVec 3) (isC : Bool) : State :=
  { s with misa := misa, frm := frm, isC := isC }

/-- The second answer is the first one varied, up to a PC that is the same where is_C is. -/
def Varied (misa : Word) (frm : BitVec 3) (isC : Bool) (answer answer' : Result) : Prop :=
  ∀ t, answer = .next t →
    ∃ v, answer' = .next { t.vary misa frm isC with pc := v } ∧ (isC = t.isC → v = t.pc)

/-- A host call's answer with its state varied. -/
def HostAnswer.vary (a : HostAnswer) (misa : Word) (frm : BitVec 3) (isC : Bool) : HostAnswer :=
  match a with
  | .ok v s => .ok v (s.vary misa frm isC)
  | .error code s => .error code (s.vary misa frm isC)
  | .noReturn => .noReturn

section Vary
variable {s : State} {misa : Word} {frm : BitVec 3} {isC : Bool}

theorem State.writeX_vary (rd : XReg) (v : Word) :
    (s.vary misa frm isC).writeX rd v = (s.writeX rd v).vary misa frm isC := by
  unfold State.writeX
  split_ifs <;> rfl

theorem State.writeFp_vary (F : Fmt) (rd : FReg) (v : BitVec F.width) :
    (s.vary misa frm isC).writeFp F rd v = (s.writeFp F rd v).vary misa frm isC := by
  cases F <;> rfl

theorem varied_retire : Varied misa frm isC (.next s.retire) (.next (s.vary misa frm isC).retire) := by
  rintro t ⟨⟩
  refine ⟨(s.vary misa frm isC).retire.pc, rfl, fun h => ?_⟩
  subst h
  rfl

theorem varied_finishX (rd : XReg) (v : Word) :
    Varied misa frm isC (finishX s rd v) (finishX (s.vary misa frm isC) rd v) := by
  rw [finishX, finishX, State.writeX_vary]
  exact varied_retire

theorem varied_finishXFlags (rd : XReg) (v : Word) (fl : FpFlags) :
    Varied misa frm isC (finishXFlags s rd v fl) (finishXFlags (s.vary misa frm isC) rd v fl) := by
  rw [finishXFlags, finishXFlags, State.writeX_vary]
  exact varied_retire

theorem varied_finishF (F : Fmt) (rd : FReg) (v : BitVec F.width) :
    Varied misa frm isC (finishF s F rd v) (finishF (s.vary misa frm isC) F rd v) := by
  rw [finishF, finishF, State.writeFp_vary]
  exact varied_retire

theorem varied_finishFFlags (F : Fmt) (rd : FReg) (r : BitVec F.width × FpFlags) :
    Varied misa frm isC (finishFFlags s F rd r) (finishFFlags (s.vary misa frm isC) F rd r) := by
  rw [finishFFlags, finishFFlags, State.writeFp_vary]
  exact varied_retire

theorem varied_illegal : Varied misa frm isC (illegal s) (illegal (s.vary misa frm isC)) := by
  rintro t ⟨⟩
  exact ⟨s.pc, rfl, fun _ => rfl⟩

theorem Varied.requireRv64 {k k' : Result} (hk : Varied misa frm isC k k') :
    Varied misa frm isC (requireRv64 s k) (requireRv64 (s.vary misa frm isC) k') := by
  by_cases hrv : s.rv = .rv64
  · have hrv' : (s.vary misa frm isC).rv = .rv64 := hrv
    rwa [requireRv64_true hrv, requireRv64_true hrv']
  · have hrv' : (s.vary misa frm isC).rv ≠ .rv64 := hrv
    rw [requireRv64_false hrv, requireRv64_false hrv']
    exact varied_illegal

theorem Varied.requireFormat (hmisa : misa = s.misa) {F : Fmt} {k k' : Result} (hk : Varied misa frm isC k k') :
    Varied misa frm isC (requireFormat s F k) (requireFormat (s.vary misa frm isC) F k') := by
  subst hmisa
  have hsame : (s.vary s.misa frm isC).hasFormat F = s.hasFormat F := by cases F <;> rfl
  cases hF : s.hasFormat F with
  | true => rwa [requireFormat_true hF, requireFormat_true (hsame.trans hF)]
  | false =>
    rw [requireFormat_false hF, requireFormat_false (hsame.trans hF)]
    exact varied_illegal

theorem roundingModeCheck_of_static {rm : Rm} (h : rm ≠ .dyn) (frm frm' : BitVec 3) :
    roundingModeCheck rm frm = roundingModeCheck rm frm' := by
  cases rm
  case dyn => exact absurd rfl h
  all_goals rfl

theorem Varied.requireFp (hmisa : misa = s.misa) {F : Fmt} {rm : Rm} (hfrm : frm = s.frm ∨ some rm ≠ some .dyn)
    {k k' : Mode → Result} (hk : ∀ mode, Varied misa frm isC (k mode) (k' mode)) :
    Varied misa frm isC (requireFp s F rm k) (requireFp (s.vary misa frm isC) F rm k') := by
  apply Varied.requireFormat hmisa
  have hsame : roundingModeCheck rm (s.vary misa frm isC).frm = roundingModeCheck rm s.frm := by
    obtain rfl | hstatic := hfrm
    · rfl
    · exact roundingModeCheck_of_static (fun e => hstatic (congrArg some e)) _ _
  cases hm : roundingModeCheck rm s.frm with
  | some mode => rw [requireMode_some hm, requireMode_some (hsame.trans hm)]; exact hk mode
  | none => rw [requireMode_none hm, requireMode_none (hsame.trans hm)]; exact varied_illegal

/-! The host calls. -/

theorem translate_vary (kind : Access) (ea : Word) :
    translate (s.vary misa frm isC) kind ea = (translate s kind ea).vary misa frm isC := by
  cases hvm : s.host.vmActive with
  | false =>
    have hvm' : (s.vary misa frm isC).host.vmActive = false := hvm
    rw [translate_inactive hvm, translate_inactive hvm', HostAnswer.vary]
  | true =>
    have hhost : (s.vary misa frm isC).host = s.host := rfl
    simp only [translate, hhost, hvm, if_true, vmTranslate]
    split
    · rfl
    · split <;> rfl

theorem memReply_vary (kind : Access) (w : MemWidth) (pa : Word) :
    memReply (s.vary misa frm isC) kind w pa = memReply s kind w pa := rfl

theorem memRead_vary (d : Word) (w : MemWidth) (pa : Word) :
    memRead (s.vary misa frm isC) d w pa = (memRead s d w pa).vary misa frm isC := by
  rw [memRead, memRead, memReply_vary]
  split <;> rfl

theorem memWrite_vary (w : MemWidth) (pa v : Word) :
    memWrite (s.vary misa frm isC) w pa v = (memWrite s w pa v).vary misa frm isC := by
  rw [memWrite, memWrite, memReply_vary]
  split <;> rfl

theorem Varied.andThen {a : HostAnswer} {ea : Word} {k k' : Word → State → Result}
    (hk : ∀ v u, Varied misa frm isC (k v u) (k' v (u.vary misa frm isC))) :
    Varied misa frm isC (a.andThen ea k) ((a.vary misa frm isC).andThen ea k') := by
  cases a with
  | ok v u => exact hk v u
  | error code u => rintro t ⟨⟩; exact ⟨u.pc, rfl, fun _ => rfl⟩
  | noReturn => exact nofun

theorem varied_loadThen {w : MemWidth} {ea : Word} {F : Fmt} {rd : FReg} (g : Word → BitVec F.width) :
    Varied misa frm isC (loadThen s w ea fun v s' => finishF s' F rd (g v))
      (loadThen (s.vary misa frm isC) w ea fun v s' => finishF s' F rd (g v)) := by
  rw [loadThen, loadThen, translate_vary]
  refine .andThen fun pa u => ?_
  rw [memRead_vary]
  exact .andThen fun v u => varied_finishF F rd (g v)

theorem varied_storeThen {w : MemWidth} {ea v : Word} :
    Varied misa frm isC (storeThen s w ea v) (storeThen (s.vary misa frm isC) w ea v) := by
  rw [storeThen, storeThen, translate_vary]
  refine .andThen fun pa u => ?_
  rw [memWrite_vary]
  exact .andThen fun _ u => varied_retire

/-- An instruction that asks no feature bits, or runs under the same ones, and whose rounding mode is static, or resolved
under the same frm, answers the same but for what varies. -/
theorem exec_varied (i : Instr) (hmisa : misa = s.misa ∨ needsFormat i = none)
    (hfrm : frm = s.frm ∨ i.rmField ≠ some .dyn) :
    Varied misa frm isC (exec i s) (exec i (s.vary misa frm isC)) := by
  cases i with
  | mul | mulh | mulhsu | mulhu | div | divu | rem | remu => exact varied_finishX _ _
  | mulw | divw | divuw | remw | remuw => exact .requireRv64 (varied_finishX _ _)
  | flw => exact .requireFormat (hmisa.resolve_right nofun) (varied_loadThen (F := .S) low32)
  | fld => exact .requireFormat (hmisa.resolve_right nofun) (varied_loadThen (F := .D) fun v => v)
  | fsw | fsd => exact .requireFormat (hmisa.resolve_right nofun) varied_storeThen
  | fmaddS | fmsubS | fnmsubS | fnmaddS | fmaddD | fmsubD | fnmsubD | fnmaddD
  | faddS | fsubS | fmulS | fdivS | fsqrtS | faddD | fsubD | fmulD | fdivD | fsqrtD
  | fcvtSW | fcvtSWU | fcvtDW | fcvtDWU | fcvtSD | fcvtDS =>
    exact .requireFp (hmisa.resolve_right nofun) hfrm fun _ => varied_finishFFlags _ _ _
  | fcvtSL | fcvtSLU | fcvtDL | fcvtDLU =>
    exact .requireRv64 (.requireFp (hmisa.resolve_right nofun) hfrm fun _ => varied_finishFFlags _ _ _)
  | fcvtWS | fcvtWUS | fcvtWD | fcvtWUD =>
    exact .requireFp (hmisa.resolve_right nofun) hfrm fun _ => varied_finishXFlags _ _ _
  | fcvtLS | fcvtLUS | fcvtLD | fcvtLUD =>
    exact .requireRv64 (.requireFp (hmisa.resolve_right nofun) hfrm fun _ => varied_finishXFlags _ _ _)
  | fminS | fmaxS | fminD | fmaxD => exact .requireFormat (hmisa.resolve_right nofun) (varied_finishFFlags _ _ _)
  | feqS | fltS | fleS | feqD | fltD | fleD => exact .requireFormat (hmisa.resolve_right nofun) (varied_finishXFlags _ _ _)
  | fclassS | fclassD | fmvXW => exact .requireFormat (hmisa.resolve_right nofun) (varied_finishX _ _)
  | fsgnjS | fsgnjnS | fsgnjxS | fsgnjD | fsgnjnD | fsgnjxD | fmvWX =>
    exact .requireFormat (hmisa.resolve_right nofun) (varied_finishF _ _ _)
  | fmvXD => exact .requireRv64 (.requireFormat (hmisa.resolve_right nofun) (varied_finishX _ _))
  | fmvDX => exact .requireRv64 (.requireFormat (hmisa.resolve_right nofun) (varied_finishF _ _ _))

end Vary

/-- Settles O22: three instances of `exec_varied`, each with two of the three elements kept. -/
theorem whatInstructionsDoNotRead : Obligations.WhatInstructionsDoNotRead := by
  intro i s t h
  obtain ⟨-, hmisa, hfrm, -, -, hisC⟩ := (exec_effect h).fixed
  refine ⟨fun v hF => ?_, fun v hrm => ?_, fun b => ?_⟩
  · obtain ⟨pc, hexec, hpc⟩ := exec_varied i (misa := v) (isC := s.isC) (.inr hF) (.inl rfl) t h
    refine hexec.trans ?_
    rw [hpc hisC.symm, ← hfrm, ← hisC]
    rfl
  · obtain ⟨pc, hexec, hpc⟩ := exec_varied i (frm := v) (isC := s.isC) (.inl rfl) (.inr hrm) t h
    refine hexec.trans ?_
    rw [hpc hisC.symm, ← hmisa, ← hisC]
    rfl
  · obtain ⟨pc, hexec, -⟩ := exec_varied i (isC := b) (.inl rfl) (.inl rfl) t h
    refine ⟨pc, hexec.trans ?_⟩
    rw [← hmisa, ← hfrm]
    rfl

end Sys2Proof.Machine

namespace Sys2Proof.Machine

/-! ### The high half of a product (40_m_multiply.md rules R103 to R105) -/

theorem floor_mul_div_two_pow (a b : Int) (n : Nat) :
    ⌊(a * b : ℚ) / 2 ^ n⌋ = (a * b).fdiv (2 ^ n : Nat) := by
  rw [Int.fdiv_eq_ediv_of_nonneg _ (Int.natCast_nonneg _), ← Rat.floor_intCast_div_natCast]
  push_cast
  rfl

theorem mulHighU_eq_ofInt (n : Nat) (a b : BitVec n) :
    mulHighU n a b = BitVec.ofInt n (((a.toNat : Int) * b.toNat).fdiv (2 ^ n : Nat)) := by
  rw [mulHighU, Int.fdiv_eq_ediv_of_nonneg _ (Int.natCast_nonneg _), ← BitVec.ofInt_natCast]
  push_cast
  rfl

/-- Settles O24: the three are OP forms, and the floor of a quotient by 2^n is `Int.fdiv`. -/
theorem mulHighResults : Obligations.MulHighResults := by
  intro rd rs1 rs2 s
  rw [floor_mul_div_two_pow, floor_mul_div_two_pow, floor_mul_div_two_pow, wordX_eq_ofInt, wordX_eq_ofInt,
    wordX_eq_ofInt, signedX_eq_toInt, signedX_eq_toInt, unsignedX_eq_toNat, unsignedX_eq_toNat, ← mulHighU_eq_ofInt]
  exact ⟨completes_of_opX (op := mulHigh) rfl, completes_of_opX (op := mulHighSU) rfl,
    completes_of_opX (op := mulHighU) rfl⟩

/-! ### The divisions as one integer (41_m_divide.md rules R121, R123 to R127) -/

theorem divUnsigned_eq_ofInt (n : Nat) (a b : BitVec n) :
    divUnsigned n a b = BitVec.ofInt n (if (b.toNat : Int) = 0 then 2 ^ n - 1 else (a.toNat : Int) / b.toNat) := by
  have hones : (2 ^ n - 1 : Int) = ((2 ^ n - 1 : Nat) : Int) := by
    rw [Int.natCast_sub Nat.one_le_two_pow]
    push_cast
    rfl
  rw [divUnsigned, hones]
  simp only [Int.natCast_eq_zero]
  split_ifs
  · rw [BitVec.ofInt_natCast]
  · rw [← Int.natCast_ediv, BitVec.ofInt_natCast]

theorem remUnsigned_eq_ofInt (n : Nat) (a b : BitVec n) :
    remUnsigned n a b =
      BitVec.ofInt n (if (b.toNat : Int) = 0 then (a.toNat : Int) else (a.toNat : Int) % b.toNat) := by
  rw [remUnsigned]
  simp only [Int.natCast_eq_zero]
  split_ifs
  · rw [BitVec.ofInt_natCast, BitVec.ofNat_toNat, BitVec.setWidth_eq]
  · rw [← Int.natCast_emod, BitVec.ofInt_natCast]

/-- Settles O27: DIVU and REMU are the OP forms of `divUnsigned` and `remUnsigned`. -/
theorem unsignedDivideResults : Obligations.UnsignedDivideResults := by
  intro rd rs1 rs2 s
  rw [wordX_eq_ofInt, wordX_eq_ofInt, unsignedX_eq_toNat, unsignedX_eq_toNat, ← divUnsigned_eq_ofInt,
    ← remUnsigned_eq_ofInt]
  exact ⟨completes_of_opX rfl, completes_of_opX rfl⟩

/-- Settles O28: the four are the OP_32 forms of the divisions at width 32. -/
theorem wordDivideResults : Obligations.WordDivideResults := by
  intro rd rs1 rs2 s
  simp only [sextWord_eq_ofInt, signed32_eq_toInt, unsigned32_eq_toNat]
  rw [← divSigned_eq_ofInt 32, ← divUnsigned_eq_ofInt 32, ← remSigned_eq_ofInt 32, ← remUnsigned_eq_ofInt 32]
  exact ⟨fun hrv => ⟨completes_of_op32 hrv rfl, completes_of_op32 hrv rfl, completes_of_op32 hrv rfl,
      completes_of_op32 hrv rfl⟩,
    fun hrv => ⟨runsIllegal_of_op32 hrv rfl, runsIllegal_of_op32 hrv rfl, runsIllegal_of_op32 hrv rfl,
      runsIllegal_of_op32 hrv rfl⟩⟩

/-! ### Reading back the result of an OP form -/

/-- x[r] of the state t is the word v of the XLEN of s. -/
structure ReadsBack (s t : State) (r : XReg) (v : BitVec s.rv.xlen) : Prop where
  readX : t.readX r = v.setWidth 64
  unsigned : unsignedX t r = v.toNat
  signed : signedX t r = v.toInt

theorem readsBack_of_opX {i : Instr} {s t : State} {op : (n : Nat) → BitVec n → BitVec n → BitVec n}
    {rd rs1 rs2 : XReg} (hi : exec i s = opX op rd rs1 rs2 s) (hrd : rd ≠ 0) (h : exec i s = .next t) :
    ReadsBack s t rd (op s.rv.xlen (s.xlenWord rs1) (s.xlenWord rs2)) := by
  obtain ⟨u, hu, hwrote⟩ := completes_of_opX hi
  cases hu.symm.trans h
  have hread := hwrote.dest hrd
  have hrv := hwrote.rest.rv
  generalize op s.rv.xlen (s.xlenWord rs1) (s.xlenWord rs2) = v at hread
  have hword : t.xlenWord rd = v.setWidth t.rv.xlen := by
    rw [State.xlenWord, hread, BitVec.setWidth_setWidth_of_le _ (xlen_le _)]
  refine ⟨hread, ?_, ?_⟩
  · rw [unsignedX_eq_toNat, hword, hrv, BitVec.setWidth_eq]
  · rw [signedX_eq_toInt, hword, hrv, BitVec.setWidth_eq]

/-! ### Laws of multiplication at width n (40_m_multiply.md rule R107) -/

section Multiply
variable {n : Nat} (a b : BitVec n)

theorem mulLow_eq_mul : mulLow n a b = a * b := by
  rw [mulLow, BitVec.ofInt_mul, BitVec.ofInt_toInt, BitVec.ofInt_toInt]

theorem ofInt_toNat_mul : BitVec.ofInt n (a.toNat * b.toNat) = mulLow n a b := by
  rw [mulLow_eq_mul, BitVec.ofInt_mul, BitVec.ofInt_natCast, BitVec.ofInt_natCast, BitVec.ofNat_toNat, BitVec.ofNat_toNat,
    BitVec.setWidth_eq, BitVec.setWidth_eq]

theorem mulLow_comm : mulLow n a b = mulLow n b a := by rw [mulLow, mulLow, mul_comm]

theorem mulHigh_comm : mulHigh n a b = mulHigh n b a := by rw [mulHigh, mulHigh, mul_comm]

theorem mulHighU_comm : mulHighU n a b = mulHighU n b a := by rw [mulHighU, mulHighU, mul_comm]

/-- The low half of a product that fits in 2n bits is its remainder, the high half its floor. -/
theorem toInt_fdiv_mul_add (hn : 0 < n) {p : Int} (hlow : -2 ^ (n - 1) * 2 ^ n ≤ p) (hhigh : p < 2 ^ (n - 1) * 2 ^ n) :
    (BitVec.ofInt n (p.fdiv (2 ^ n : Nat))).toInt * 2 ^ n + (BitVec.ofInt n p).toNat = p := by
  have hpos : (0 : Int) < (2 ^ n : Nat) := by exact_mod_cast Nat.two_pow_pos n
  have hcast : ((2 ^ n : Nat) : Int) = 2 ^ n := by push_cast; rfl
  rw [Int.fdiv_eq_ediv_of_nonneg _ hpos.le, BitVec.toInt_ofInt_eq_self hn, BitVec.toNat_ofInt,
    Int.toNat_of_nonneg (Int.emod_nonneg _ hpos.ne'), ← hcast, Int.ediv_mul_add_emod]
  · exact Int.le_ediv_of_mul_le hpos (hcast ▸ hlow)
  · exact Int.ediv_lt_of_lt_mul hpos (hcast ▸ hhigh)

theorem toInt_bounds : -2 ^ (n - 1) ≤ a.toInt ∧ a.toInt < 2 ^ (n - 1) := ⟨BitVec.le_toInt a, BitVec.toInt_lt⟩

theorem two_pow_pred_mul_two (hn : 0 < n) : (2 : Int) ^ n = 2 ^ (n - 1) * 2 := by
  rw [← pow_succ, Nat.sub_add_cancel hn]

theorem mulHigh_mul_add (hn : 0 < n) :
    (mulHigh n a b).toInt * 2 ^ n + (mulLow n a b).toNat = a.toInt * b.toInt := by
  obtain ⟨halow, hahigh⟩ := toInt_bounds a
  obtain ⟨hblow, hbhigh⟩ := toInt_bounds b
  have hhalf := two_pow_pred_mul_two hn
  have hpos : (0 : Int) < 2 ^ (n - 1) := by positivity
  rw [mulHigh, mulLow]
  apply toInt_fdiv_mul_add hn <;> rw [hhalf] <;> nlinarith

theorem mulHighSU_mul_add (hn : 0 < n) :
    (mulHighSU n a b).toInt * 2 ^ n + (mulLow n a b).toNat = a.toInt * b.toNat := by
  obtain ⟨halow, hahigh⟩ := toInt_bounds a
  have hb : (b.toNat : Int) < 2 ^ n := by exact_mod_cast b.isLt
  have hb0 : (0 : Int) ≤ b.toNat := Int.natCast_nonneg _
  have hpos : (0 : Int) < 2 ^ (n - 1) := by positivity
  have hlow : BitVec.ofInt n (a.toInt * b.toNat) = mulLow n a b := by
    rw [mulLow_eq_mul, BitVec.ofInt_mul, BitVec.ofInt_toInt, BitVec.ofInt_natCast, BitVec.ofNat_toNat, BitVec.setWidth_eq]
  rw [mulHighSU, ← hlow]
  apply toInt_fdiv_mul_add hn <;> nlinarith

theorem mulHighU_mul_add :
    ((mulHighU n a b).toNat : Int) * 2 ^ n + (mulLow n a b).toNat = a.toNat * b.toNat := by
  have hhigh : a.toNat * b.toNat / 2 ^ n < 2 ^ n := by
    apply Nat.div_lt_of_lt_mul
    exact Nat.mul_lt_mul'' a.isLt b.isLt
  rw [mulHighU, BitVec.toNat_ofNat, Nat.mod_eq_of_lt hhigh, mulLow_eq_mul, BitVec.toNat_mul]
  exact_mod_cast Nat.div_add_mod' (a.toNat * b.toNat) (2 ^ n)

end Multiply

theorem opX_comm {op : (n : Nat) → BitVec n → BitVec n → BitVec n} (h : ∀ {n} (a b : BitVec n), op n a b = op n b a)
    (rd rs1 rs2 : XReg) (s : State) : opX op rd rs2 rs1 s = opX op rd rs1 rs2 s := by
  rw [opX, opX, atXlen_eq_setWidth, atXlen_eq_setWidth, h]

/-- Settles O29: the laws at width n, read back from the registers. -/
theorem multiplicationLaws : Obligations.MultiplicationLaws := by
  intro s lo hi hsu hu p q rs1 rs2 hp hq hlo hhi hhsu hhu
  have hn := xlen_pos s.rv
  have rlo := readsBack_of_opX (op := mulLow) rfl hq hlo
  have rhi := readsBack_of_opX (op := mulHigh) rfl hp hhi
  have rhsu := readsBack_of_opX (op := mulHighSU) rfl hp hhsu
  have rhu := readsBack_of_opX (op := mulHighU) rfl hp hhu
  refine ⟨?_, ?_, ?_, ?_, ?_, ?_, ?_⟩
  · rw [rhu.unsigned, rlo.unsigned, unsignedX_eq_toNat, unsignedX_eq_toNat, mulHighU_mul_add]
  · rw [rhi.signed, rlo.unsigned, signedX_eq_toInt, signedX_eq_toInt, mulHigh_mul_add _ _ hn]
  · rw [rhsu.signed, rlo.unsigned, signedX_eq_toInt, unsignedX_eq_toNat, mulHighSU_mul_add _ _ hn]
  · rw [rlo.readX, wordX_eq_ofInt, unsignedX_eq_toNat, unsignedX_eq_toNat, ofInt_toNat_mul]
  · exact (opX_comm mulLow_comm q rs1 rs2 s).trans hlo
  · exact (opX_comm mulHigh_comm p rs1 rs2 s).trans hhi
  · exact (opX_comm mulHighU_comm p rs1 rs2 s).trans hhu

/-! ### Laws of division at width n (41_m_divide.md rule R128) -/

section Divide
variable {n : Nat} {a b : BitVec n}

theorem toNat_divUnsigned (hb : b.toNat ≠ 0) : (divUnsigned n a b).toNat = a.toNat / b.toNat := by
  rw [divUnsigned, if_neg hb, BitVec.toNat_ofNat, Nat.mod_eq_of_lt ((Nat.div_le_self _ _).trans_lt a.isLt)]

theorem toNat_remUnsigned (hb : b.toNat ≠ 0) : (remUnsigned n a b).toNat = a.toNat % b.toNat := by
  rw [remUnsigned, if_neg hb, BitVec.toNat_ofNat, Nat.mod_eq_of_lt ((Nat.mod_le _ _).trans_lt a.isLt)]

/-- Outside the overflow the truncated quotient fits in n bits. -/
theorem toInt_divSigned (hn : 0 < n) (hb : b.toInt ≠ 0) (h : ¬ (a.toInt = -2 ^ (n - 1) ∧ b.toInt = -1)) :
    (divSigned n a b).toInt = a.toInt.tdiv b.toInt := by
  have hne : a ≠ BitVec.intMin n ∨ b ≠ -1#n := by
    rw [← not_and_or]
    rintro ⟨rfl, rfl⟩
    refine h ⟨BitVec.toInt_intMin_of_pos hn, ?_⟩
    rw [BitVec.neg_one_eq_allOnes, BitVec.toInt_allOnes, if_pos hn]
  rw [divSigned_eq_ofInt, if_neg hb, if_neg h, BitVec.toInt_ofInt, ← BitVec.toInt_sdiv,
    BitVec.toInt_sdiv_of_ne_or_ne a b hne]

/-- The remainder of INT_MIN by −1 is 0 by the general rule too. -/
theorem toInt_remSigned (hb : b.toInt ≠ 0) : (remSigned n a b).toInt = a.toInt.tmod b.toInt := by
  have hrem : remSigned n a b = BitVec.ofInt n (a.toInt.tmod b.toInt) := by
    rw [remSigned_eq_ofInt, if_neg hb, ← Int.tmod_def]
    split_ifs with hoverflow
    · rw [hoverflow.2, Int.tmod_neg, Int.tmod_one]
    · rfl
  rw [hrem, ← BitVec.toInt_srem, BitVec.ofInt_toInt]

theorem toNat_divUnsigned_of_zero (hb : b.toNat = 0) : ((divUnsigned n a b).toNat : Int) = 2 ^ n - 1 := by
  rw [divUnsigned, if_pos hb, BitVec.toNat_ofNat, Nat.mod_eq_of_lt (Nat.sub_one_lt (Nat.two_pow_pos n).ne'),
    Int.natCast_sub Nat.one_le_two_pow]
  push_cast
  rfl

theorem toInt_divSigned_of_zero (hn : 0 < n) (hb : b.toInt = 0) : (divSigned n a b).toInt = -1 := by
  have hhalf : (1 : Int) ≤ 2 ^ (n - 1) := one_le_pow₀ one_le_two
  rw [divSigned, if_pos hb, BitVec.toInt_ofInt_eq_self hn] <;> omega

theorem divSigned_of_overflow (ha : a.toInt = -2 ^ (n - 1)) (hb : b.toInt = -1) : divSigned n a b = a := by
  rw [divSigned_eq_ofInt, if_neg (by rw [hb]; decide), if_pos ⟨ha, hb⟩, ← ha, BitVec.ofInt_toInt]

end Divide

theorem abs_tmod_lt (a : Int) {b : Int} (hb : b ≠ 0) : |a.tmod b| < |b| := by
  rw [Int.abs_eq_natAbs, Int.abs_eq_natAbs, Int.natAbs_tmod]
  exact_mod_cast Nat.mod_lt _ (Int.natAbs_pos.2 hb)

/-- A truncated remainder has the sign of the dividend. -/
theorem tmod_mul_nonneg (a b : Int) : 0 ≤ a.tmod b * a := by
  rcases le_total 0 a with ha | ha
  · exact mul_nonneg (Int.tmod_nonneg b ha) ha
  · have hneg := Int.tmod_nonneg b (neg_nonneg.2 ha)
    rw [Int.neg_tmod] at hneg
    exact mul_nonneg_of_nonpos_of_nonpos (by omega) ha

/-- Settles O30: the laws at width n, read back from the registers. -/
theorem divisionLaws : Obligations.DivisionLaws := by
  intro s d r du ru p q rs1 rs2 hp hq hd hr hdu hru
  have hn := xlen_pos s.rv
  have rd := readsBack_of_opX (op := divSigned) rfl hp hd
  have rr := readsBack_of_opX (op := remSigned) rfl hq hr
  have rdu := readsBack_of_opX (op := divUnsigned) rfl hp hdu
  have rru := readsBack_of_opX (op := remUnsigned) rfl hq hru
  rw [rd.readX, rr.readX, rru.readX, rd.signed, rr.signed, rdu.unsigned, rru.unsigned, unsignedX_eq_toNat,
    unsignedX_eq_toNat, signedX_eq_toInt, signedX_eq_toInt, ← setWidth_xlenWord s rs1]
  generalize s.xlenWord rs1 = a
  generalize s.xlenWord rs2 = b
  refine ⟨fun hb => ?unsigned, fun hb => ?zero, fun hb hoverflow => ?signed, fun hb => ?remainder, fun ha hb => ?overflow⟩
  case unsigned =>
    have hb : b.toNat ≠ 0 := by exact_mod_cast hb
    rw [toNat_divUnsigned hb, toNat_remUnsigned hb]
    exact ⟨by exact_mod_cast Nat.div_add_mod' a.toNat b.toNat,
      by exact_mod_cast Nat.mod_lt a.toNat (Nat.pos_of_ne_zero hb)⟩
  case zero =>
    have hb : b.toNat = 0 := by exact_mod_cast hb
    have hbi : b.toInt = 0 := by rw [BitVec.toInt_eq_toNat_bmod, hb]; exact Int.zero_bmod
    exact ⟨toNat_divUnsigned_of_zero hb, by rw [remUnsigned, if_pos hb], toInt_divSigned_of_zero hn hbi,
      by rw [remSigned, if_pos hbi]⟩
  case signed => rw [toInt_divSigned hn hb hoverflow, toInt_remSigned hb, Int.tdiv_mul_add_tmod]
  case remainder =>
    rw [toInt_remSigned hb]
    exact ⟨abs_tmod_lt _ hb, tmod_mul_nonneg _ _⟩
  case overflow =>
    rw [divSigned_of_overflow ha hb, toInt_remSigned (by rw [hb]; decide), hb, Int.tmod_neg, Int.tmod_one]
    exact ⟨rfl, rfl⟩

end Sys2Proof.Machine

namespace Sys2Proof.Machine

/-! ### Where the FP forms complete (42_fp_numerics.md rules R151, R160) -/

theorem hasFormat_S_of_hasF {s : State} (h : HasF s) : s.hasFormat .S = true := h

section Forms
variable {i : Instr} {s : State} {F : Fmt} {rm : Rm} {mode : Mode}

theorem completes_of_finishFFlags {rd : FReg} {r : BitVec F.width × FpFlags} (h : exec i s = finishFFlags s F rd r) :
    Completes i s fun t => WroteFp F s t rd r :=
  ⟨_, h, wroteF_retire s F rd r.1 r.2⟩

theorem completes_of_finishXFlags {rd : XReg} {v : Word} {fl : FpFlags} (h : exec i s = finishXFlags s rd v fl) :
    Completes i s fun t => WroteX s t rd (wrapX s.rv v) fl :=
  ⟨_, h, wroteX_retire s rd v fl⟩

section Rounded
variable (hF : s.hasFormat F = true) (hm : roundingModeCheck rm s.frm = some mode)
include hF hm

theorem completes_of_fpBinary {op : BitVec F.width → BitVec F.width → Mode → FpResult F} {rd rs1 rs2 : FReg}
    (h : exec i s = fpBinary F op rd rs1 rs2 rm s) :
    Completes i s fun t => WroteFp F s t rd (op (s.readFp F rs1) (s.readFp F rs2) mode) :=
  completes_of_finishFFlags (h.trans (requireFp_legal hF hm _))

theorem completes_of_fpRoot {rd rs1 : FReg} (h : exec i s = fpRoot F rd rs1 rm s) :
    Completes i s fun t => WroteFp F s t rd (fpSqrt F (s.readFp F rs1) mode) :=
  completes_of_finishFFlags (h.trans (requireFp_legal hF hm _))

theorem completes_of_fpFused {np nc : Bool} {rd rs1 rs2 rs3 : FReg} (h : exec i s = fpFused F np nc rd rs1 rs2 rs3 rm s) :
    Completes i s fun t =>
      WroteFp F s t rd (fpFma F (s.readFp F rs1) (s.readFp F rs2) (s.readFp F rs3) np nc mode) :=
  completes_of_finishFFlags (h.trans (requireFp_legal hF hm _))

theorem completes_of_fcvtFromInt {k : IntKind} {rd : FReg} {rs1 : XReg} {n : Int}
    (hn : intOfWord k (s.readX rs1) = n) (h : exec i s = fcvtFromInt F k rd rs1 rm s) :
    Completes i s fun t => WroteFp F s t rd (intToFp F n mode) := by
  subst hn
  exact completes_of_finishFFlags (h.trans (requireFp_legal hF hm _))

theorem completes_of_fcvtToInt {k : IntKind} {rd : XReg} {rs1 : FReg} (h : exec i s = fcvtToInt F k rd rs1 rm s)
    (hk : ∀ n, wrapX s.rv (wordOfInt k n) = intResult s k n) :
    Completes i s fun t =>
      WroteX s t rd (intResult s k (fpToInt F k (s.readFp F rs1) mode).1) (fpToInt F k (s.readFp F rs1) mode).2 := by
  rw [← hk]
  exact completes_of_finishXFlags (h.trans (requireFp_legal hF hm _))

end Rounded

theorem completes_of_fminmax (hF : s.hasFormat F = true) {isMax : Bool} {rd rs1 rs2 : FReg}
    (h : exec i s = fminmax F isMax rd rs1 rs2 s) :
    Completes i s fun t => WroteFp F s t rd (fpMinMax F isMax (s.readFp F rs1) (s.readFp F rs2)) :=
  completes_of_finishFFlags (h.trans (requireFormat_true hF _))

end Forms

/-- Settles O31: the ten are binary forms or square roots, and the operands are read in their format. -/
theorem arithmeticCompletes : Obligations.ArithmeticCompletes := by
  intro rd rs1 rs2 rm mode s hm
  refine ⟨fun hF => ?single, fun hFD => ?double⟩
  case single =>
    have hformat := hasFormat_S_of_hasF hF
    exact ⟨completes_of_fpBinary hformat hm rfl, completes_of_fpBinary hformat hm rfl, completes_of_fpBinary hformat hm rfl,
      completes_of_fpBinary hformat hm rfl, completes_of_fpRoot hformat hm rfl⟩
  case double =>
    have hformat := hasFormat_D_of_hasFD hFD
    exact ⟨completes_of_fpBinary hformat hm rfl, completes_of_fpBinary hformat hm rfl, completes_of_fpBinary hformat hm rfl,
      completes_of_fpBinary hformat hm rfl, completes_of_fpRoot hformat hm rfl⟩

/-- Settles O32: the eight are fused forms with their sign choices. -/
theorem fusedMultiplyAddCompletes : Obligations.FusedMultiplyAddCompletes := by
  intro rd rs1 rs2 rs3 rm mode s hm
  refine ⟨fun hF => ?single, fun hFD => ?double⟩
  case single =>
    have hformat := hasFormat_S_of_hasF hF
    exact ⟨completes_of_fpFused hformat hm rfl, completes_of_fpFused hformat hm rfl, completes_of_fpFused hformat hm rfl,
      completes_of_fpFused hformat hm rfl⟩
  case double =>
    have hformat := hasFormat_D_of_hasFD hFD
    exact ⟨completes_of_fpFused hformat hm rfl, completes_of_fpFused hformat hm rfl, completes_of_fpFused hformat hm rfl,
      completes_of_fpFused hformat hm rfl⟩

/-! ### The integer result of a conversion (92_eei_decisions.md D22) -/

theorem low32_sext32 (v : BitVec 32) : low32 (sext32 v) = v := by
  have hv := v.isLt
  apply BitVec.eq_of_toNat_eq
  rw [toNat_low32, sext32, BitVec.toNat_signExtend, BitVec.toNat_setWidth]
  split_ifs <;> omega

theorem wrapX_sext32_ofInt (s : State) (i : Int) : wrapX s.rv (sext32 (BitVec.ofInt 32 i)) = sextXlen s i := by
  unfold sextXlen
  cases s.rv with
  | rv32 =>
    show (low32 (sext32 (BitVec.ofInt 32 i))).setWidth 64 = wordN 32 i
    rw [low32_sext32, wordN_eq_ofInt]
  | rv64 => rw [wrapX_rv64, sextWord_eq_ofInt]

theorem wrapX_ofInt_of_rv64 {s : State} (hrv : s.rv = .rv64) (i : Int) :
    wrapX s.rv (BitVec.ofInt 64 i) = wordN 64 i := by
  rw [hrv, wrapX_rv64, wordN_eq_ofInt, BitVec.setWidth_eq]

/-- Settles O33: the eight are `fcvtToInt`, behind the RV64 guard for the L forms, and the written word is the integer's
at XLEN. -/
theorem floatToIntegerCompletes : Obligations.FloatToIntegerCompletes := by
  intro rd rs1 rm mode s hm
  have hw := wrapX_sext32_ofInt s
  refine ⟨fun hF => ?_, fun hF hrv => ?_, fun hFD => ?_, fun hFD hrv => ?_⟩
  · have hformat := hasFormat_S_of_hasF hF
    exact ⟨completes_of_fcvtToInt (k := .w) hformat hm rfl hw, completes_of_fcvtToInt (k := .wu) hformat hm rfl hw⟩
  · have hformat := hasFormat_S_of_hasF hF
    have hl := wrapX_ofInt_of_rv64 hrv
    exact ⟨completes_of_fcvtToInt (k := .l) hformat hm (requireRv64_true hrv _) hl,
      completes_of_fcvtToInt (k := .lu) hformat hm (requireRv64_true hrv _) hl⟩
  · have hformat := hasFormat_D_of_hasFD hFD
    exact ⟨completes_of_fcvtToInt (k := .w) hformat hm rfl hw, completes_of_fcvtToInt (k := .wu) hformat hm rfl hw⟩
  · have hformat := hasFormat_D_of_hasFD hFD
    have hl := wrapX_ofInt_of_rv64 hrv
    exact ⟨completes_of_fcvtToInt (k := .l) hformat hm (requireRv64_true hrv _) hl,
      completes_of_fcvtToInt (k := .lu) hformat hm (requireRv64_true hrv _) hl⟩

/-- Settles O34: the eight are `fcvtFromInt`, behind the RV64 guard for the L forms. -/
theorem integerToFloatCompletes : Obligations.IntegerToFloatCompletes := by
  intro rd rs1 rm mode s hm
  have hw := intOfWord_w_readX s rs1
  have hwu := intOfWord_wu_readX s rs1
  have hlu := intOfWord_lu_readX s rs1
  refine ⟨fun hF => ?_, fun hF hrv => ?_, fun hFD => ?_, fun hFD hrv => ?_⟩
  · have hformat := hasFormat_S_of_hasF hF
    exact ⟨completes_of_fcvtFromInt hformat hm hw rfl, completes_of_fcvtFromInt hformat hm hwu rfl⟩
  · have hformat := hasFormat_S_of_hasF hF
    exact ⟨completes_of_fcvtFromInt hformat hm (intOfWord_l_readX hrv rs1) (requireRv64_true hrv _),
      completes_of_fcvtFromInt hformat hm hlu (requireRv64_true hrv _)⟩
  · have hformat := hasFormat_D_of_hasFD hFD
    exact ⟨completes_of_fcvtFromInt hformat hm hw rfl, completes_of_fcvtFromInt hformat hm hwu rfl⟩
  · have hformat := hasFormat_D_of_hasFD hFD
    exact ⟨completes_of_fcvtFromInt hformat hm (intOfWord_l_readX hrv rs1) (requireRv64_true hrv _),
      completes_of_fcvtFromInt hformat hm hlu (requireRv64_true hrv _)⟩

/-- Settles O35: both directions stand behind the feature bits of D. -/
theorem formatConversionCompletes : Obligations.FormatConversionCompletes := by
  intro rd rs1 rm mode s hFD hm
  have hformat := hasFormat_D_of_hasFD hFD
  exact ⟨completes_of_finishFFlags (F := .S) (requireFp_legal hformat hm _),
    completes_of_finishFFlags (F := .D) (requireFp_legal hformat hm _)⟩

/-- Settles O36. -/
theorem minMaxCompletes : Obligations.MinMaxCompletes := by
  intro rd rs1 rs2 s
  refine ⟨fun hF => ?single, fun hFD => ?double⟩
  case single =>
    have hformat := hasFormat_S_of_hasF hF
    exact ⟨completes_of_fminmax hformat rfl, completes_of_fminmax hformat rfl⟩
  case double =>
    have hformat := hasFormat_D_of_hasFD hFD
    exact ⟨completes_of_fminmax hformat rfl, completes_of_fminmax hformat rfl⟩

/-! ### Comparison and classification results fit in XLEN bits (92_eei_decisions.md D39) -/

theorem wrapX_of_lt_two_pow {rv : Rv} {v : Word} (h : v.toNat < 2 ^ 32) : wrapX rv v = v :=
  wrapX_of_lt (h.trans_le (by cases rv <;> decide))

theorem fpCompare_fst_lt (F : Fmt) (op : CmpOp) (a b : BitVec F.width) : (fpCompare F op a b).1.toNat < 2 ^ 32 := by
  unfold fpCompare
  split_ifs
  · exact Nat.two_pow_pos 32
  · decide
  · decide

theorem fpClass_lt (F : Fmt) (x : BitVec F.width) : (fpClass F x).toNat < 2 ^ 32 := by
  unfold fpClass
  split_ifs <;> decide

section Forms
variable {i : Instr} {s : State} {F : Fmt} (hF : s.hasFormat F = true)
include hF

theorem completes_of_fcmp {op : CmpOp} {rd : XReg} {rs1 rs2 : FReg} (h : exec i s = fcmp F op rd rs1 rs2 s) :
    Completes i s fun t => WroteX s t rd (fpCompare F op (s.readFp F rs1) (s.readFp F rs2)).1
      (fpCompare F op (s.readFp F rs1) (s.readFp F rs2)).2 := by
  have hc := completes_of_finishXFlags (h.trans (requireFormat_true hF _))
  rwa [wrapX_of_lt_two_pow (fpCompare_fst_lt _ _ _ _)] at hc

theorem completes_of_fclass {rd : XReg} {rs1 : FReg} (h : exec i s = fclass F rd rs1 s) :
    Completes i s fun t => WroteX s t rd (fpClass F (s.readFp F rs1)) 0 := by
  have hc := completes_of_finishX (h.trans (requireFormat_true hF _))
  rwa [wrapX_of_lt_two_pow (fpClass_lt _ _)] at hc

end Forms

/-- Settles O37. -/
theorem compareAndClassifyComplete : Obligations.CompareAndClassifyComplete := by
  intro rd rs1 rs2 s
  refine ⟨fun hF => ?single, fun hFD => ?double⟩
  case single =>
    have hformat := hasFormat_S_of_hasF hF
    exact ⟨completes_of_fcmp hformat rfl, completes_of_fcmp hformat rfl, completes_of_fcmp hformat rfl,
      completes_of_fclass hformat rfl⟩
  case double =>
    have hformat := hasFormat_D_of_hasFD hFD
    exact ⟨completes_of_fcmp hformat rfl, completes_of_fcmp hformat rfl, completes_of_fcmp hformat rfl,
      completes_of_fclass hformat rfl⟩

/-- Settles O39: the raw low word of an FPR is an integer sign-extended at XLEN, that of a general register is boxed, and
the D forms stand behind the RV64 guard. -/
theorem movesCopyRawBits : Obligations.MovesCopyRawBits := by
  intro xr fr s
  refine ⟨fun hF => ⟨?fmvXW, ?fmvWX⟩, fun hFD hrv => ⟨?fmvXD, ?fmvDX⟩, fun hrv => ⟨?_, ?_⟩⟩
  case fmvXW =>
    have hc : Completes (.fmvXW xr fr) s _ := completes_of_finishX (requireFormat_true (hasFormat_S_of_hasF hF) _)
    rwa [low32_eq_ofNat, ← BitVec.ofInt_natCast, wrapX_sext32_ofInt] at hc
  case fmvWX =>
    have hc : Completes (.fmvWX fr xr) s _ := completes_of_finishF (F := .S) (requireFormat_true (hasFormat_S_of_hasF hF) _)
    rw [← toNat_low32]
    exact hc
  case fmvXD =>
    have hexec : exec (.fmvXD xr fr) s = finishX s xr (s.readF fr) :=
      (requireRv64_true hrv _).trans (requireFormat_true (hasFormat_D_of_hasFD hFD) _)
    have hc := completes_of_finishX hexec
    rwa [hrv, wrapX_rv64] at hc
  case fmvDX =>
    have hexec : exec (.fmvDX fr xr) s = finishF s .D fr (s.readX xr) :=
      (requireRv64_true hrv _).trans (requireFormat_true (hasFormat_D_of_hasFD hFD) _)
    exact completes_of_finishF hexec
  all_goals exact requireRv64_false (by simp [hrv]) _

end Sys2Proof.Machine

namespace Sys2Proof.Machine

/-! ### Little-endian bytes (20_memory.md rule R55) -/

theorem byteAddress_zero (pa : Word) : byteAddress pa 0 = pa.toNat := Nat.mod_eq_of_lt pa.isLt

theorem byteAddress_succ (pa : Word) (k : Nat) : byteAddress pa (k + 1) = byteAddress (pa + 1) k := byte_succ pa k

/-- The sum of bytes that `leValue` states is the one that `loadLE` computes. -/
theorem leValue_eq_loadLE (s : State) (pa : Word) (n : Nat) : leValue s pa n = s.mem.loadLE pa n := by
  induction n generalizing pa with
  | zero => rfl
  | succ n ih =>
    rw [Memory.loadLE, ← ih, leValue, leValue, List.range_succ_eq_map, List.map_cons, List.sum_cons, List.map_map,
      byteAddress_zero, pow_zero, mul_one, ← List.sum_map_mul_left]
    congr 3
    funext k
    simp only [Function.comp_apply, byteAddress_succ, pow_succ]
    ring

/-! ### Memory calls (20_memory.md rules R53, R54) -/

section Calls
variable {s : State} {w : MemWidth} {pa v d code : Word}

theorem memRead_of_perform (h : memReply s .load w pa = .perform) :
    memRead s d w pa = .ok (BitVec.ofNat 64 (leValue s pa w.bytes)) s := by
  rw [memRead, h, leValue_eq_loadLE]

theorem memRead_of_error (h : memReply s .load w pa = .error (some code)) : memRead s d w pa = .error code s := by
  rw [memRead, h]

theorem memRead_of_error_none (h : memReply s .load w pa = .error none) : memRead s d w pa = .error d s := by
  rw [memRead, h]

theorem memRead_of_noReturn (h : memReply s .load w pa = .noReturn) : memRead s d w pa = .noReturn := by
  rw [memRead, h]

theorem memWrite_of_perform (h : memReply s .store w pa = .perform) :
    memWrite s w pa v = .ok 0 { s with mem := s.mem.storeLE pa w.bytes v.toNat } := by
  rw [memWrite, h]

theorem memWrite_of_error (h : memReply s .store w pa = .error (some code)) : memWrite s w pa v = .error code s := by
  rw [memWrite, h]

theorem memWrite_of_error_none (h : memReply s .store w pa = .error none) :
    memWrite s w pa v = .error s.host.storeAccessFault s := by
  rw [memWrite, h]

theorem memWrite_of_noReturn (h : memReply s .store w pa = .noReturn) : memWrite s w pa v = .noReturn := by
  rw [memWrite, h]

theorem memReply_of_misaligned {loadCode storeCode : Word} (hm : s.host.misaligned = .error loadCode storeCode)
    (hpa : pa.toNat % w.bytes ≠ 0) :
    memReply s .load w pa = .error (some loadCode) ∧ memReply s .store w pa = .error (some storeCode) := by
  rw [memReply, memReply, hm]
  exact ⟨if_neg hpa, if_neg hpa⟩

theorem bytes_le (w : MemWidth) : w.bytes ≤ 2 ^ 64 := by cases w <;> decide

end Calls

/-- Settles O58: the calls by the host's reply, and the reply by the misalignment policy and then by the regions. -/
theorem memoryCallsByReply : Obligations.MemoryCallsByReply := by
  intro s d w pa v
  refine ⟨memRead_of_perform, fun _ => memRead_of_error, memRead_of_error_none, fun hwf h => ?write,
    fun _ => memWrite_of_error, memWrite_of_error_none, fun _ _ => memReply_of_misaligned, fun haligned => ⟨?_, ?_⟩⟩
  case write =>
    exact ⟨0, _, memWrite_of_perform h, rfl, Memory.read_storeLE_byte hwf pa (bytes_le w) v.toNat,
      fun a => Memory.read_storeLE_other _ _ _ _⟩
  · intro hout
    rw [memReply_regions haligned, memReply_regions haligned]
    exact ⟨regionReply_outside hout .load, regionReply_outside hout .store⟩
  · intro before r after hregions hbefore htouches
    rw [memReply_regions haligned, memReply_regions haligned]
    exact ⟨regionReply_first hregions hbefore htouches .load, regionReply_first hregions hbefore htouches .store⟩

/-! ### Translation (20_memory.md rule R52) -/

theorem translate_keeps_rest {s s1 : State} {kind : Access} {ea pa : Word} (h : translate s kind ea = .ok pa s1) :
    s1 = { s with mem := s1.mem } := by
  obtain ⟨ts, rfl⟩ := translate_ok h
  rfl

theorem wf_of_translate_ok {s s1 : State} {kind : Access} {ea pa : Word} (h : translate s kind ea = .ok pa s1)
    (hwf : s.mem.wf = true) : s1.mem.wf = true := by
  obtain ⟨ts, rfl⟩ := translate_ok h
  exact Memory.wf_touch hwf ts

theorem Memory.read_touch_other (m : Memory) (ts : List Touch) {a : Nat} (h : ∀ w ∈ ts, a ≠ w.addr.toNat) :
    (m.touch ts).read a = m.read a := by
  induction ts generalizing m with
  | nil => rfl
  | cons t ts ih =>
    show ((m.write t.addr.toNat t.byte).touch ts).read a = m.read a
    rw [ih _ fun w hw => h w (by simp [hw]), Memory.read_write_other _ (h t (by simp))]

section Active
variable {s : State} {kind : Access} {ea : Word} (hvm : s.host.vmActive = true)
include hvm

theorem translate_of_not_covered (h : ∀ r ∈ s.host.translations, r.size ≤ (ea - r.base).toNat) :
    translate s kind ea = .error (pageFaultCode s.host kind) s := by
  have hfind : s.host.translations.find? (fun t => covers t.base t.size ea) = none :=
    List.find?_eq_none.2 fun r hr => by simpa [covers] using h r hr
  rw [translate, if_pos hvm, vmTranslate, hfind]

/-- The answer of the first row that covers the address. -/
theorem translate_of_first {before after : List Translation} {r : Translation}
    (hs : s.host.translations = before ++ r :: after) (hb : ∀ q ∈ before, q.size ≤ (ea - q.base).toNat)
    (hr : (ea - r.base).toNat < r.size) :
    translate s kind ea = match translationReply r kind with
      | .mapTo pa ts => .ok (pa + (ea - r.base)) { s with mem := s.mem.touch ts }
      | .error code ts => .error code { s with mem := s.mem.touch ts }
      | .noReturn => .noReturn := by
  have hbefore : before.find? (fun t => covers t.base t.size ea) = none :=
    List.find?_eq_none.2 fun q hq => by simpa [covers] using hb q hq
  have hfind : s.host.translations.find? (fun t => covers t.base t.size ea) = some r := by
    rw [hs, List.find?_append, hbefore, Option.none_or, List.find?_cons_of_pos (by simpa [covers] using hr)]
  rw [translate, if_pos hvm, vmTranslate, hfind] <;> rfl

end Active

/-- Settles O57: VM inactive, no row, and the first row by its reply. -/
theorem translationRule : Obligations.TranslationRule := by
  intro s kind ea
  refine ⟨fun hvm => translate_inactive hvm kind ea, translate_of_not_covered, fun before r after hvm hs hb hr => ?_⟩
  rw [translate_of_first hvm hs hb hr]
  refine ⟨fun pa ts hreply => ?_, fun code ts hreply => ?_, fun hreply => ?_⟩ <;> rw [hreply]
  · exact ⟨_, rfl, rfl, fun a => Memory.read_touch_other s.mem ts⟩
  · exact ⟨_, rfl, rfl, fun a => Memory.read_touch_other s.mem ts⟩

/-! ### Loads and stores that complete (47_fp_load_store.md rules R280 to R283) -/

/-- The state after a performed store. -/
def State.afterStore (s : State) (pa : Word) (n v : Nat) : State :=
  ({ s with mem := s.mem.storeLE pa n v } : State).retire

section Complete
variable {s s1 : State} {w : MemWidth} {ea pa v : Word}

theorem loadThen_of_perform {k : Word → State → Result} (ht : translate s .load ea = .ok pa s1)
    (hr : memReply s1 .load w pa = .perform) :
    loadThen s w ea k = k (BitVec.ofNat 64 (leValue s1 pa w.bytes)) s1 :=
  (andThen_of_ok ht).trans (andThen_of_ok (memRead_of_perform hr))

theorem storeThen_of_perform (ht : translate s .store ea = .ok pa s1) (hr : memReply s1 .store w pa = .perform) :
    storeThen s w ea v = .next (s1.afterStore pa w.bytes v.toNat) :=
  (andThen_of_ok ht).trans (andThen_of_ok (memWrite_of_perform hr))

/-- What the state after a performed store is to the state its translation left. -/
theorem stored_afterStore (hwf : s.mem.wf = true) (pa : Word) {n : Nat} (hn : n ≤ 2 ^ 64) (v : Nat) :
    Stored s (s.afterStore pa n v) pa n v where
  legal := rfl
  pc := pcAdvanced_retire rfl rfl rfl
  x _ := rfl
  f _ := rfl
  fflags := rfl
  stored := Memory.read_storeLE_byte hwf pa hn v
  others _ := Memory.read_storeLE_other _ _ _ _
  rest := ⟨rfl, rfl, rfl, rfl, rfl, rfl, rfl, rfl⟩

theorem completes_of_store {i : Instr} (hi : exec i s = storeThen s w ea v) (hwf : s.mem.wf = true)
    (ht : translate s .store ea = .ok pa s1) (hr : memReply s1 .store w pa = .perform) :
    Completes i s fun t => Stored s1 t pa w.bytes v.toNat ∧ s1 = { s with mem := s1.mem } :=
  ⟨_, hi.trans (storeThen_of_perform ht hr),
    stored_afterStore (wf_of_translate_ok ht hwf) pa (bytes_le w) v.toNat, translate_keeps_rest ht⟩

end Complete

theorem fprValue_low32_ofNat {n : Nat} (hn : n < 2 ^ 32) :
    fprValue .S (low32 (BitVec.ofNat 64 n)) = BitVec.ofNat 64 ((2 ^ 32 - 1) * 2 ^ 32 + n) := by
  have hlow : (low32 (BitVec.ofNat 64 n)).toNat = n := by
    rw [toNat_low32, BitVec.toNat_ofNat]
    omega
  rw [fprValue, hlow]

theorem leValue_lt (s : State) (pa : Word) (n : Nat) : leValue s pa n < 256 ^ n := by
  rw [leValue_eq_loadLE]
  exact Memory.loadLE_lt s.mem pa n

/-- Settles O54: a performed load ends in the write of f[rd] on the state that the translation left. -/
theorem loadsComplete : Obligations.LoadsComplete := by
  intro rd rs1 imm s s1 pa ht
  have hrest := translate_keeps_rest ht
  refine ⟨fun hF hr => ?word, fun hFD hr => ?double⟩
  case word =>
    have hexec := (exec_flw rd rs1 imm hF).trans (loadThen_of_perform ht hr)
    have hw := wroteF_retire s1 .S rd (low32 (BitVec.ofNat 64 (leValue s1 pa 4))) FpFlag.none
    rw [accrue_none, fprValue_low32_ofNat (leValue_lt s1 pa 4)] at hw
    exact ⟨_, hexec, hw, hrest⟩
  case double =>
    have hexec := (exec_fld rd rs1 imm hFD).trans (loadThen_of_perform ht hr)
    have hw := wroteF_retire s1 .D rd (BitVec.ofNat 64 (leValue s1 pa 8)) FpFlag.none
    rw [accrue_none] at hw
    exact ⟨_, hexec, hw, hrest⟩

theorem toNat_ofNat_mod (v : Word) : (BitVec.ofNat 64 (v.toNat % 2 ^ 32)).toNat = v.toNat % 2 ^ 32 := by
  rw [BitVec.toNat_ofNat]
  omega

/-- Settles O55: a performed store is `storeLE` on the memory that the translation left. -/
theorem storesComplete : Obligations.StoresComplete := by
  intro rs2 rs1 imm s s1 pa hwf ht
  refine ⟨fun hF hr => ?word, fun hFD hr => completes_of_store (w := .double) (exec_fsd rs2 rs1 imm hFD) hwf ht hr⟩
  case word =>
    have hc := completes_of_store (w := .word) (exec_fsw rs2 rs1 imm hF) hwf ht hr
    rwa [toNat_ofNat_mod] at hc

/-! ### Host calls that never return (93_implementation_defined.md section 1) -/

section NeverReturns
variable {s m : State} {w : MemWidth} {ea pa v : Word} {k : Word → State → Result}

theorem andThen_of_noReturn {a : HostAnswer} (h : a = .noReturn) : a.andThen ea k = .fault .hostCallNeverReturns := by
  rw [h, HostAnswer.andThen]

theorem loadThen_of_reply_noReturn (ht : translate s .load ea = .ok pa m) (hr : memReply m .load w pa = .noReturn) :
    loadThen s w ea k = .fault .hostCallNeverReturns :=
  (andThen_of_ok ht).trans (andThen_of_noReturn (memRead_of_noReturn hr))

theorem storeThen_of_reply_noReturn (ht : translate s .store ea = .ok pa m) (hr : memReply m .store w pa = .noReturn) :
    storeThen s w ea v = .fault .hostCallNeverReturns :=
  (andThen_of_ok ht).trans (andThen_of_noReturn (memWrite_of_noReturn hr))

end NeverReturns

/-- Settles O59: the first of the two host calls that does not return is the answer. -/
theorem neverReturningHostCallsFault : Obligations.NeverReturningHostCallsFault := by
  intro fr rs1 imm s hFD
  refine ⟨fun ht => ⟨(exec_flw fr rs1 imm hFD.1).trans (andThen_of_noReturn ht),
      (exec_fld fr rs1 imm hFD).trans (andThen_of_noReturn ht)⟩,
    fun ht => ⟨(exec_fsw fr rs1 imm hFD.1).trans (andThen_of_noReturn ht),
      (exec_fsd fr rs1 imm hFD).trans (andThen_of_noReturn ht)⟩,
    fun pa m ht => ⟨fun hr => (exec_flw fr rs1 imm hFD.1).trans (loadThen_of_reply_noReturn ht hr),
      fun hr => (exec_fld fr rs1 imm hFD).trans (loadThen_of_reply_noReturn ht hr)⟩,
    fun pa m ht => ⟨fun hr => (exec_fsw fr rs1 imm hFD.1).trans (storeThen_of_reply_noReturn ht hr),
      fun hr => (exec_fsd fr rs1 imm hFD).trans (storeThen_of_reply_noReturn ht hr)⟩⟩

end Sys2Proof.Machine

namespace Sys2Proof.Machine

/-! ### A load reads back what stores wrote (20_memory.md rule R58) -/

/-- Bytes that hold the digits of v in base 256 hold v. -/
theorem leValue_of_bytes {s : State} {pa : Word} {n v : Nat}
    (h : ∀ k, k < n → (s.mem.read (byteAddress pa k)).toNat = v / 256 ^ k % 256) : leValue s pa n = v % 256 ^ n := by
  induction n with
  | zero => rw [pow_zero, Nat.mod_one]; rfl
  | succ n ih =>
    have hprefix := ih fun k hk => h k (by omega)
    rw [leValue] at hprefix ⊢
    rw [List.range_succ, List.map_append, List.sum_append, hprefix, List.map_singleton, List.sum_singleton, h n (by omega),
      Nat.mod_pow_succ, mul_comm]

theorem Memory.loadLE_add (m : Memory) (pa : Word) (n k : Nat) :
    m.loadLE pa (n + k) = m.loadLE pa n + 256 ^ n * m.loadLE (pa + BitVec.ofNat 64 n) k := by
  induction n generalizing pa with
  | zero => simp [Memory.loadLE]
  | succ n ih =>
    have hnext : pa + 1 + BitVec.ofNat 64 n = pa + BitVec.ofNat 64 (n + 1) := by
      rw [BitVec.add_assoc, BitVec.ofNat_add, BitVec.add_comm (BitVec.ofNat 64 n)]
      rfl
    rw [Nat.succ_add, Memory.loadLE, Memory.loadLE, ih, hnext]
    ring

/-- The doubleword at pa is the word at pa below the word at pa + 4. -/
theorem leValue_double (s : State) (pa : Word) : leValue s pa 8 = leValue s pa 4 + 2 ^ 32 * leValue s (pa + 4) 4 := by
  rw [leValue_eq_loadLE, leValue_eq_loadLE, leValue_eq_loadLE]
  exact s.mem.loadLE_add pa 4 4

theorem byteAddress_ne_of_word_above (pa : Word) {j k : Nat} (hj : j < 4) (hk : k < 4) :
    byteAddress pa j ≠ byteAddress (pa + 4) k := by
  have hfour : (4 : Word).toNat = 4 := rfl
  have hpa := pa.isLt
  rw [byteAddress, byteAddress, BitVec.toNat_add, hfour]
  omega

/-- The premises under which every access is performed where it is asked. -/
structure Performs (s : State) : Prop where
  hasFD : HasFD s
  inactive : s.host.vmActive = false
  wf : s.mem.wf = true
  noRegions : s.host.regions = []
  aligned : s.host.misaligned = .perform

section Performs
variable {s : State} (h : Performs s)
include h

theorem Performs.memReply (kind : Access) (w : MemWidth) (pa : Word) : memReply s kind w pa = .perform := by
  rw [memReply_regions (.inl h.aligned)]
  exact regionReply_outside (by simp [h.noRegions]) kind

theorem Performs.afterStore (pa : Word) (n v : Nat) : Performs (s.afterStore pa n v) :=
  ⟨h.hasFD, h.inactive, Memory.wf_storeLE h.wf pa n v, h.noRegions, h.aligned⟩

theorem Performs.exec_fsw (fr : FReg) (rs1 : XReg) (imm : BitVec 12) :
    exec (.fsw fr rs1 imm) s = .next (s.afterStore (addressOf s rs1 imm) 4 ((s.readF fr).toNat % 2 ^ 32)) := by
  rw [Machine.exec_fsw fr rs1 imm h.hasFD.1,
    storeThen_of_perform (translate_inactive h.inactive .store _) (h.memReply .store .word _), toNat_ofNat_mod]
  rfl

theorem Performs.exec_fsd (fr : FReg) (rs1 : XReg) (imm : BitVec 12) :
    exec (.fsd fr rs1 imm) s = .next (s.afterStore (addressOf s rs1 imm) 8 (s.readF fr).toNat) := by
  rw [Machine.exec_fsd fr rs1 imm h.hasFD,
    storeThen_of_perform (translate_inactive h.inactive .store _) (h.memReply .store .double _)]
  rfl

theorem Performs.exec_flw (rd : FReg) (rs1 : XReg) (imm : BitVec 12) :
    ∃ t, exec (.flw rd rs1 imm) s = .next t ∧
      t.readF rd = BitVec.ofNat 64 ((2 ^ 32 - 1) * 2 ^ 32 + leValue s (addressOf s rs1 imm) 4) := by
  obtain ⟨hsingle, -⟩ := loadsComplete rd rs1 imm s s _ (translate_inactive h.inactive .load _)
  obtain ⟨t, hexec, hwrote, -⟩ := hsingle h.hasFD.1 (h.memReply .load .word _)
  exact ⟨t, hexec, hwrote.dest⟩

theorem Performs.exec_fld (rd : FReg) (rs1 : XReg) (imm : BitVec 12) :
    ∃ t, exec (.fld rd rs1 imm) s = .next t ∧
      t.readF rd = BitVec.ofNat 64 (leValue s (addressOf s rs1 imm) 8) := by
  obtain ⟨-, hdouble⟩ := loadsComplete rd rs1 imm s s _ (translate_inactive h.inactive .load _)
  obtain ⟨t, hexec, hwrote, -⟩ := hdouble h.hasFD (h.memReply .load .double _)
  exact ⟨t, hexec, hwrote.dest⟩

theorem Performs.leValue_afterStore (pa : Word) {n : Nat} (hn : n ≤ 2 ^ 64) (v : Nat) :
    leValue (s.afterStore pa n v) pa n = v % 256 ^ n :=
  leValue_of_bytes (stored_afterStore h.wf pa hn v).stored

/-- A word stored above leaves the word at pa. -/
theorem Performs.leValue_afterStore_above (pa : Word) (v : Nat) :
    leValue (s.afterStore (pa + 4) 4 v) pa 4 = leValue s pa 4 := by
  rw [leValue, leValue]
  congr 1
  refine List.map_congr_left fun j hj => ?_
  rw [(stored_afterStore h.wf (pa + 4) (by decide) v).others _ fun k hk =>
    byteAddress_ne_of_word_above pa (List.mem_range.1 hj) hk]

end Performs

/-- Settles O60: a store leaves the premises and the address as they were, and the load sums the stored digits. -/
theorem storeThenLoadReadsBack : Obligations.StoreThenLoadReadsBack := by
  intro rd fr hi rs1 imm imm4 s hFD hvm hwf hregions haligned
  have h : Performs s := ⟨hFD, hvm, hwf, hregions, haligned⟩
  set ea := addressOf s rs1 imm with hea
  have hlow := Nat.mod_lt (s.readF fr).toNat (Nat.two_pow_pos 32)
  have hhigh := Nat.mod_lt (s.readF hi).toNat (Nat.two_pow_pos 32)
  refine ⟨?word, ?double, fun hea4 => ?combined⟩
  case word =>
    have ht := h.afterStore ea 4 ((s.readF fr).toNat % 2 ^ 32)
    obtain ⟨u, hu, hread⟩ := ht.exec_flw rd rs1 imm
    refine ⟨_, u, h.exec_fsw fr rs1 imm, hu, hread.trans ?_⟩
    have hsum := h.leValue_afterStore ea (n := 4) (by decide) ((s.readF fr).toNat % 2 ^ 32)
    rw [Nat.mod_eq_of_lt (b := 256 ^ 4) hlow] at hsum
    exact congrArg (fun v => BitVec.ofNat 64 ((2 ^ 32 - 1) * 2 ^ 32 + v)) hsum
  case double =>
    have ht := h.afterStore ea 8 (s.readF fr).toNat
    obtain ⟨u, hu, hread⟩ := ht.exec_fld rd rs1 imm
    refine ⟨_, u, h.exec_fsd fr rs1 imm, hu, hread.trans ?_⟩
    have hsum := h.leValue_afterStore ea (n := 8) (by decide) (s.readF fr).toNat
    rw [Nat.mod_eq_of_lt (b := 256 ^ 8) (s.readF fr).isLt] at hsum
    exact (congrArg (BitVec.ofNat 64) hsum).trans (by rw [BitVec.ofNat_toNat, BitVec.setWidth_eq])
  case combined =>
    have ht := h.afterStore ea 4 ((s.readF fr).toNat % 2 ^ 32)
    have hu := ht.afterStore (ea + 4) 4 ((s.readF hi).toNat % 2 ^ 32)
    obtain ⟨v, hv, hread⟩ := hu.exec_fld rd rs1 imm
    have hsecond := ht.exec_fsw hi rs1 imm4
    refine ⟨_, _, v, h.exec_fsw fr rs1 imm, ?_, hv, hread.trans ?_⟩
    · refine hsecond.trans ?_
      rw [← hea4]
      rfl
    · have hlowsum := ht.leValue_afterStore_above ea ((s.readF hi).toNat % 2 ^ 32)
      rw [h.leValue_afterStore ea (by decide), Nat.mod_eq_of_lt (b := 256 ^ 4) hlow] at hlowsum
      have hhighsum := ht.leValue_afterStore (ea + 4) (n := 4) (by decide) ((s.readF hi).toNat % 2 ^ 32)
      rw [Nat.mod_eq_of_lt (b := 256 ^ 4) hhigh] at hhighsum
      refine congrArg (BitVec.ofNat 64) ((leValue_double _ ea).trans ?_)
      rw [hlowsum, hhighsum]
      ring

end Sys2Proof.Machine

namespace Sys2Proof.Machine

/-! ### The class of a word (45_fp_compare_class.md rule R252) -/

/-- The ten classes, in the order of the bits of the mask. -/
def inClass (F : Fmt) (x : BitVec F.width) : Fin 10 → Prop
  | 0 => isInf F x = true ∧ signOf F x = true
  | 1 => 0 < expOf F x ∧ expOf F x < F.expOnes ∧ signOf F x = true
  | 2 => isSubnormal F x = true ∧ signOf F x = true
  | 3 => isZero F x = true ∧ signOf F x = true
  | 4 => isZero F x = true ∧ signOf F x = false
  | 5 => isSubnormal F x = true ∧ signOf F x = false
  | 6 => 0 < expOf F x ∧ expOf F x < F.expOnes ∧ signOf F x = false
  | 7 => isInf F x = true ∧ signOf F x = false
  | 8 => isSNaN F x = true
  | 9 => isQNaN F x = true

section Class
variable {F : Fmt} {x : BitVec F.width}

theorem isFinite_iff : isFinite F x = true ↔ expOf F x ≠ F.expOnes := by simp [isFinite]

theorem isFinite_of_expOf_eq_zero (h : expOf F x = 0) : isFinite F x = true :=
  isFinite_iff.2 (h ▸ (expOnes_ne_zero F).symm)

theorem isInf_of_isNaN (h : isNaN F x = true) : isInf F x = false := by
  cases hi : isInf F x with
  | false => rfl
  | true => simp [isNaN_of_isInf hi] at h

theorem fpClass_of_isInf (h : isInf F x = true) : fpClass F x = if signOf F x then 0x001 else 0x080 := by
  simp [fpClass, h]

theorem fpClass_of_isNaN (h : isNaN F x = true) : fpClass F x = if isQNaN F x then 0x200 else 0x100 := by
  simp [fpClass, h, isInf_of_isNaN h]

theorem fpClass_of_isFinite (h : isFinite F x = true) :
    fpClass F x =
      if isZero F x then if signOf F x then 0x008 else 0x010
      else if expOf F x = 0 then if signOf F x then 0x004 else 0x020
      else if signOf F x then 0x002 else 0x040 := by
  simp [fpClass, isInf_of_isFinite h, isNaN_of_isFinite h]

theorem fpClass_of_isZero (h : isZero F x = true) : fpClass F x = if signOf F x then 0x008 else 0x010 := by
  rw [fpClass_of_isFinite (isFinite_of_isZero h), if_pos h]

theorem fpClass_of_isSubnormal (h : isSubnormal F x = true) : fpClass F x = if signOf F x then 0x004 else 0x020 := by
  obtain ⟨hexp, hfrac⟩ : expOf F x = 0 ∧ fracOf F x ≠ 0 := by simpa [isSubnormal] using h
  rw [fpClass_of_isFinite (isFinite_of_expOf_eq_zero hexp), if_neg (by simp [isZero, hfrac]), if_pos hexp]

theorem fpClass_of_normal (h0 : 0 < expOf F x) (h1 : expOf F x < F.expOnes) :
    fpClass F x = if signOf F x then 0x002 else 0x040 := by
  rw [fpClass_of_isFinite (isFinite_iff.2 h1.ne), if_neg (by simp [isZero, h0.ne']), if_neg h0.ne']

theorem fpClass_of_inClass {k : Fin 10} (h : inClass F x k) : fpClass F x = 1#64 <<< k.val := by
  match k, h with
  | 0, ⟨hc, hs⟩ | 7, ⟨hc, hs⟩ => rw [fpClass_of_isInf hc, hs]; rfl
  | 1, ⟨h0, h1, hs⟩ | 6, ⟨h0, h1, hs⟩ => rw [fpClass_of_normal h0 h1, hs]; rfl
  | 2, ⟨hc, hs⟩ | 5, ⟨hc, hs⟩ => rw [fpClass_of_isSubnormal hc, hs]; rfl
  | 3, ⟨hc, hs⟩ | 4, ⟨hc, hs⟩ => rw [fpClass_of_isZero hc, hs]; rfl
  | 8, (hc : isSNaN F x = true) =>
    have hq : isQNaN F x = false := by
      cases hq : isQNaN F x with
      | false => rfl
      | true => exact absurd hc (by simp [isSNaN_of_isQNaN hq])
    rw [fpClass_of_isNaN (isNaN_of_isSNaN hc), hq]
    rfl
  | 9, hc => rw [fpClass_of_isNaN (isNaN_of_isQNaN hc), hc]; rfl

theorem exists_inClass (F : Fmt) (x : BitVec F.width) : ∃ k, inClass F x k := by
  cases hn : isNaN F x with
  | true =>
    rw [isNaN_eq, Bool.or_eq_true] at hn
    obtain hq | hs := hn
    · exact ⟨9, hq⟩
    · exact ⟨8, hs⟩
  | false =>
    cases hi : isInf F x with
    | true => cases hs : signOf F x; exacts [⟨7, hi, hs⟩, ⟨0, hi, hs⟩]
    | false =>
      rcases Nat.eq_zero_or_pos (expOf F x) with hexp | hexp
      · by_cases hfrac : fracOf F x = 0
        · have hz : isZero F x = true := by simp [isZero, hexp, hfrac]
          cases hs : signOf F x; exacts [⟨4, hz, hs⟩, ⟨3, hz, hs⟩]
        · have hsub : isSubnormal F x = true := by simp [isSubnormal, hexp, hfrac]
          cases hs : signOf F x; exacts [⟨5, hsub, hs⟩, ⟨2, hsub, hs⟩]
      · have hlt := expOf_lt_expOnes hn hi
        cases hs : signOf F x; exacts [⟨6, hexp, hlt, hs⟩, ⟨1, hexp, hlt, hs⟩]

theorem fpClass_eq_iff (k : Fin 10) : fpClass F x = 1#64 <<< k.val ↔ inClass F x k := by
  refine ⟨fun h => ?_, fpClass_of_inClass⟩
  obtain ⟨j, hj⟩ := exists_inClass F x
  have hbits : ∀ j k : Fin 10, 1#64 <<< j.val = 1#64 <<< k.val → j = k := by decide
  exact hbits j k ((fpClass_of_inClass hj).symm.trans h) ▸ hj

end Class

/-- Settles O52: every word is in one of ten classes, and the mask has the bit of that class. -/
theorem classifyIsOneHot : Obligations.ClassifyIsOneHot := by
  intro F x
  obtain ⟨k, hk⟩ := exists_inClass F x
  exact ⟨⟨k, k.isLt, fpClass_of_inClass hk⟩, fpClass_eq_iff 0, fpClass_eq_iff 1, fpClass_eq_iff 2, fpClass_eq_iff 3,
    fpClass_eq_iff 4, fpClass_eq_iff 5, fpClass_eq_iff 6, fpClass_eq_iff 7, fpClass_eq_iff 8, fpClass_eq_iff 9⟩

/-! ### Comparisons (45_fp_compare_class.md rule R245) -/

section Compare
variable {F : Fmt} {a b : BitVec F.width} (op : CmpOp)

theorem fpCompare_of_nan (h : isNaN F a = true ∨ isNaN F b = true) :
    fpCompare F op a b = (0, FpFlag.ifTrue (decide (op ≠ .eq) || isSNaN F a || isSNaN F b) FpFlag.nv) :=
  if_pos (by simpa using h)

section Numbers
variable (ha : isNaN F a = false) (hb : isNaN F b = false)
include ha hb

theorem fpCompare_of_not_nan : fpCompare F op a b = (if cmpValues F op a b then 1 else 0, FpFlag.none) :=
  if_neg (by simp [ha, hb])

theorem fpCompare_eq_one_iff : (fpCompare F op a b).1 = 1 ↔ cmpValues F op a b = true := by
  rw [fpCompare_of_not_nan op ha hb]
  cases cmpValues F op a b <;> decide

end Numbers

/-- Words of one order key are of one value: a finite word never meets the key of an infinity. -/
theorem orderKey_eq_iff_equalValue : orderKey F a = orderKey F b ↔ equalValue F a b := by
  unfold equalValue
  split_ifs with hinf
  · refine ⟨fun h => eq_of_orderKey_eq h ?_, fun h => h ▸ rfl⟩
    rintro ⟨hza, hzb⟩
    simp [isInf_of_isFinite (isFinite_of_isZero hza), isInf_of_isFinite (isFinite_of_isZero hzb)] at hinf
  · rw [orderKey_eq_valueOf, orderKey_eq_valueOf, valueQ_eq_valueOf_mul, valueQ_eq_valueOf_mul,
      mul_left_inj' (zpow_ne_zero _ two_ne_zero), Int.cast_inj]
end Compare

/-- Settles O51: a NaN decides the result and the flag; on numbers the order key is the order of values. -/
theorem comparisonsAreOnValues : Obligations.ComparisonsAreOnValues := by
  intro F a b
  dsimp only
  by_cases hnan : isNaN F a = true ∨ isNaN F b = true
  · simp only [hnan, not_true_eq_false, true_implies, false_implies, and_true, fpCompare_of_nan _ hnan]
    refine ⟨fun _ => trivial, fun hsnan op => ?_, fun hsnan => ?_⟩
    · have hcond : (decide (op ≠ .eq) || isSNaN F a || isSNaN F b) = true := by
        rw [Bool.or_assoc, Bool.or_eq_true, Bool.or_eq_true]
        exact .inr hsnan
      rw [hcond]
      rfl
    · obtain ⟨hsa, hsb⟩ : isSNaN F a = false ∧ isSNaN F b = false := by simpa using hsnan
      rw [hsa, hsb]
      exact ⟨rfl, rfl, rfl⟩
  · obtain ⟨ha, hb⟩ : isNaN F a = false ∧ isNaN F b = false := by simpa using hnan
    simp only [hnan, not_false_eq_true, true_implies, false_implies, true_and, fpCompare_eq_one_iff _ ha hb,
      below_iff_orderKey_lt ha hb, ← orderKey_eq_iff_equalValue]
    refine ⟨fun op => ?_, decide_eq_true_iff, decide_eq_true_iff, decide_eq_true_iff.trans le_iff_lt_or_eq⟩
    rw [fpCompare_of_not_nan op ha hb]
    refine ⟨rfl, ?_⟩
    cases cmpValues F op a b
    · exact .inl rfl
    · exact .inr rfl

end Sys2Proof.Machine

namespace Sys2Proof.Machine

/-! ### A real between two neighbours (42_fp_numerics.md rules R152, R153) -/

/-- x stands in [lo, hi) where the class of its fraction says: at lo, below the middle, in the middle, above it. -/
def Between {K : Type} [Field K] [LinearOrder K] (fr : Frac) (lo hi x : K) : Prop :=
  match fr with
  | .zero => x = lo
  | .low => lo < x ∧ 2 * x < lo + hi
  | .half => 2 * x = lo + hi
  | .high => lo + hi < 2 * x ∧ x < hi

section Between
variable {K : Type} [Field K] [LinearOrder K] [IsStrictOrderedRing K] {fr : Frac} {lo hi x : K}

theorem Between.mem_Ico (h : Between fr lo hi x) (hlt : lo < hi) : lo ≤ x ∧ x < hi := by
  cases fr <;> simp only [Between] at h <;> constructor <;> linarith

theorem Between.scale (h : Between fr lo hi x) {u : K} (hu : 0 < u) : Between fr (lo * u) (hi * u) (x * u) := by
  cases fr <;> simp only [Between] at h ⊢
  case zero => rw [h]
  case low => constructor <;> nlinarith
  case half => rw [← mul_assoc, h, add_mul]
  case high => constructor <;> nlinarith

theorem Between.pos_of_ne_zero (h : Between fr lo hi x) (hlt : lo < hi) (hfr : fr ≠ .zero) : lo < x := by
  cases fr <;> simp only [Between] at h
  case zero => exact absurd rfl hfr
  all_goals linarith

/-- Of the two neighbours the lower one, at a zero fraction, is x itself. -/
theorem Between.eq_iff {r : K} (h : Between fr lo hi x) (hlt : lo < hi) (hr : r = lo ∨ r = hi)
    (hzero : fr = .zero → r = lo) : r = x ↔ fr = .zero := by
  refine ⟨fun heq => ?_, fun hfr => ?_⟩
  · by_contra hfr
    have hlo := h.pos_of_ne_zero hlt hfr
    have hhi := (h.mem_Ico hlt).2
    rcases hr with rfl | rfl
    · exact hlo.ne heq
    · exact hhi.ne' heq
  · rw [hzero hfr]
    subst hfr
    exact Eq.symm h

/-- The fraction n/d above its floor. -/
theorem between_div (n : Nat) {d : Nat} (hd : 0 < d) :
    Between (fracClass (n % d) d) ((n / d : Nat) : K) ((n / d : Nat) + 1 : K) ((n : K) / d) := by
  have hd' : (0 : K) < d := by exact_mod_cast hd
  have hsplit : (n : K) / d = (n / d : Nat) + ((n % d : Nat) : K) / d := by
    rw [eq_comm, ← mul_left_inj' hd'.ne', add_mul, div_mul_cancel₀ _ hd'.ne', div_mul_cancel₀ _ hd'.ne']
    exact_mod_cast Nat.div_add_mod' n d
  have hlt : ((n % d : Nat) : K) / d < 1 := by
    rw [div_lt_one hd']
    exact_mod_cast Nat.mod_lt n hd
  rw [hsplit]
  generalize ((n / d : Nat) : K) = q
  generalize n % d = r at hlt
  unfold fracClass
  split_ifs with hzero hlow hhalf
  · simp [Between, hzero]
  · have hpos : 0 < (r : K) / d := div_pos (by exact_mod_cast Nat.pos_of_ne_zero hzero) hd'
    have hbelow : 2 * ((r : K) / d) < 1 := by
      rw [← mul_div_assoc, div_lt_one hd']
      exact_mod_cast hlow
    constructor <;> linarith
  · have heq : 2 * ((r : K) / d) = 1 := by
      rw [← mul_div_assoc, div_eq_one_iff_eq hd'.ne']
      exact_mod_cast hhalf
    simp only [Between]
    linarith
  · have habove : 1 < 2 * ((r : K) / d) := by
      rw [← mul_div_assoc, one_lt_div hd']
      exact_mod_cast lt_of_le_of_ne (not_lt.1 hlow) (Ne.symm hhalf)
    constructor <;> linarith

end Between

/-! ### Scaling by a power of two -/

section Scale
variable {n d : Nat} (hd : 0 < d) (k : Int)
include hd

theorem scaleRatio_snd_pos : 0 < (scaleRatio n d k).2 := by
  unfold scaleRatio
  split_ifs
  · exact Nat.mul_pos hd (Nat.two_pow_pos _)
  · exact hd

theorem scaleRatio_div {K : Type} [Field K] [CharZero K] :
    ((scaleRatio n d k).1 : K) / (scaleRatio n d k).2 = (n : K) / d / 2 ^ k := by
  have hd' : (d : K) ≠ 0 := by exact_mod_cast hd.ne'
  unfold scaleRatio
  split_ifs with hk
  · lift k to ℕ using hk
    push_cast
    rw [Int.toNat_natCast, zpow_natCast, div_div]
  · obtain ⟨j, rfl⟩ : ∃ j : ℕ, k = -j := ⟨(-k).toNat, by omega⟩
    push_cast
    rw [neg_neg, Int.toNat_natCast, zpow_neg, zpow_natCast, div_inv_eq_mul, mul_div_right_comm]

end Scale

/-! ### Integer square roots -/

theorem sqrtBits_spec (n b r : Nat) (hlow : r * r ≤ n) (hhigh : n < (r + 2 ^ b) * (r + 2 ^ b)) :
    sqrtBits n b r * sqrtBits n b r ≤ n ∧ n < (sqrtBits n b r + 1) * (sqrtBits n b r + 1) := by
  induction b generalizing r with
  | zero => exact ⟨hlow, hhigh⟩
  | succ b ih =>
    unfold sqrtBits
    split_ifs with hbit
    · refine ih _ hbit ?_
      rwa [Nat.add_assoc, ← Nat.two_mul, ← Nat.pow_succ']
    · exact ih _ hlow (not_le.1 hbit)

theorem floorSqrt_spec (n : Nat) : floorSqrt n * floorSqrt n ≤ n ∧ n < (floorSqrt n + 1) * (floorSqrt n + 1) := by
  refine sqrtBits_spec n _ 0 (Nat.zero_le n) ?_
  rw [Nat.zero_add, ← Nat.pow_add]
  exact Nat.lt_log2_self.trans_le (Nat.pow_le_pow_right two_pos (by omega))

/-- The square root of t/u above its floor q. -/
theorem between_sqrt (t : Nat) {u : Nat} (hu : 0 < u) {q : Nat} (hlow : q * q ≤ t / u) (hhigh : t / u < (q + 1) * (q + 1)) :
    Between (rootClass t u q) (q : ℝ) (q + 1) (Real.sqrt ((t : ℝ) / u)) := by
  have hu' : (0 : ℝ) < u := by exact_mod_cast hu
  have hq : (0 : ℝ) ≤ q := Nat.cast_nonneg q
  have hlow' : (q : ℝ) ^ 2 ≤ (t : ℝ) / u := by
    rw [le_div_iff₀ hu', sq]
    exact_mod_cast (Nat.le_div_iff_mul_le hu).1 hlow
  have hhigh' : (t : ℝ) / u < ((q : ℝ) + 1) ^ 2 := by
    rw [div_lt_iff₀ hu', sq]
    exact_mod_cast (Nat.div_lt_iff_lt_mul hu).1 hhigh
  have hq1 : Real.sqrt ((t : ℝ) / u) < q + 1 := (Real.sqrt_lt' (by linarith)).2 hhigh'
  -- the middle, squared
  have hmid : (((2 * q + 1) * (2 * q + 1) * u : Nat) : ℝ) = (2 * (q : ℝ) + 1) ^ 2 * u := by push_cast; ring
  unfold rootClass
  split_ifs with hzero hbelow hhalf
  · have heq : (t : ℝ) / u = (q : ℝ) ^ 2 := by
      rw [div_eq_iff hu'.ne', sq]
      exact_mod_cast hzero.symm
    simp only [Between]
    rw [heq, Real.sqrt_sq hq]
  · have hne : (q : ℝ) ^ 2 ≠ (t : ℝ) / u := by
      rw [Ne, eq_div_iff hu'.ne', sq]
      exact_mod_cast hzero
    have hlt : (t : ℝ) / u < ((q : ℝ) + 1 / 2) ^ 2 := by
      have hcast : (4 * t : ℝ) < (2 * (q : ℝ) + 1) ^ 2 * u := by rw [← hmid]; exact_mod_cast hbelow
      rw [div_lt_iff₀ hu']
      nlinarith
    refine ⟨Real.lt_sqrt_of_sq_lt (lt_of_le_of_ne hlow' hne), ?_⟩
    have := (Real.sqrt_lt' (by linarith)).2 hlt
    linarith
  · have heq : (t : ℝ) / u = ((q : ℝ) + 1 / 2) ^ 2 := by
      have hcast : (4 * t : ℝ) = (2 * (q : ℝ) + 1) ^ 2 * u := by rw [← hmid]; exact_mod_cast hhalf
      rw [div_eq_iff hu'.ne']
      nlinarith
    simp only [Between]
    rw [heq, Real.sqrt_sq (by linarith)]
    ring
  · have hgt : ((q : ℝ) + 1 / 2) ^ 2 < (t : ℝ) / u := by
      have hcast : (2 * (q : ℝ) + 1) ^ 2 * u < 4 * t := by
        rw [← hmid]
        exact_mod_cast lt_of_le_of_ne (not_lt.1 hbelow) (Ne.symm hhalf)
      rw [lt_div_iff₀ hu']
      nlinarith
    have := Real.lt_sqrt_of_sq_lt hgt
    exact ⟨by linarith, hq1⟩

/-! ### The place of a magnitude among multiples of 2^k -/

theorem sqrt_div_two_zpow (y : ℝ) (k : Int) : Real.sqrt (y / 2 ^ (2 * k)) = Real.sqrt y / 2 ^ k := by
  have hpos : (0 : ℝ) < 2 ^ k := by positivity
  rw [mul_comm, zpow_mul, zpow_ofNat, Real.sqrt_div' _ (by positivity), Real.sqrt_sq hpos.le]

theorem Mag.between_split {a : Mag} (ha : a.positive) (k : Int) :
    Between (a.split k).2 ((a.split k).1 * 2 ^ k : ℝ) (((a.split k).1 + 1) * 2 ^ k) (magReal a) := by
  have hpos : (0 : ℝ) < 2 ^ k := by positivity
  have hscaled : Between (a.split k).2 ((a.split k).1 : ℝ) ((a.split k).1 + 1) (magReal a / 2 ^ k) := by
    cases a with
    | ratio n d =>
      have h := between_div (K := ℝ) (scaleRatio n d k).1 (scaleRatio_snd_pos (n := n) ha.2 k)
      rwa [scaleRatio_div ha.2] at h
    | root n d =>
      have hfloor := floorSqrt_spec ((scaleRatio n d (2 * k)).1 / (scaleRatio n d (2 * k)).2)
      have h := between_sqrt _ (scaleRatio_snd_pos (n := n) ha.2 (2 * k)) hfloor.1 hfloor.2
      rwa [scaleRatio_div ha.2, sqrt_div_two_zpow] at h
  have h := hscaled.scale hpos
  rwa [div_mul_cancel₀ _ hpos.ne'] at h

/-! ### The binade of a magnitude -/

theorem two_zpow_le_iff_lt {k j : Int} : (2 : ℝ) ^ k ≤ 2 ^ j ↔ k ≤ j := zpow_le_zpow_iff_right₀ one_lt_two

theorem ratioLog2_spec {n d : Nat} (hn : 0 < n) (hd : 0 < d) :
    (2 : ℝ) ^ ratioLog2 n d ≤ (n : ℝ) / d ∧ (n : ℝ) / d < 2 ^ (ratioLog2 n d + 1) := by
  have hd' : (0 : ℝ) < d := by exact_mod_cast hd
  have hnlow : (2 : ℝ) ^ (Nat.log2 n : Int) ≤ n := by
    rw [zpow_natCast]; exact_mod_cast Nat.log2_self_le hn.ne'
  have hnhigh : (n : ℝ) < 2 ^ ((Nat.log2 n : Int) + 1) := by
    rw [← Int.natCast_succ, zpow_natCast]; exact_mod_cast Nat.lt_log2_self
  have hdlow : (2 : ℝ) ^ (Nat.log2 d : Int) ≤ d := by
    rw [zpow_natCast]; exact_mod_cast Nat.log2_self_le hd.ne'
  have hdhigh : (d : ℝ) < 2 ^ ((Nat.log2 d : Int) + 1) := by
    rw [← Int.natCast_succ, zpow_natCast]; exact_mod_cast Nat.lt_log2_self
  unfold ratioLog2
  generalize (Nat.log2 n : Int) = ln at *
  generalize (Nat.log2 d : Int) = ld at *
  have hcompare : (scaleRatio n d (ln - ld)).2 ≤ (scaleRatio n d (ln - ld)).1 ↔ (2 : ℝ) ^ (ln - ld) ≤ (n : ℝ) / d := by
    have hpos : (0 : ℝ) < (scaleRatio n d (ln - ld)).2 := by exact_mod_cast scaleRatio_snd_pos hd _
    rw [← Nat.cast_le (α := ℝ), ← one_le_div hpos, scaleRatio_div hd, one_le_div (by positivity)]
  simp only [hcompare]
  split_ifs with hle
  · refine ⟨hle, ?_⟩
    rw [div_lt_iff₀ hd']
    calc (n : ℝ)
      _ < 2 ^ (ln + 1) := hnhigh
      _ = 2 ^ (ln - ld + 1) * 2 ^ ld := by rw [← zpow_add₀ two_ne_zero]; congr 1; ring
      _ ≤ 2 ^ (ln - ld + 1) * d := by gcongr
  · refine ⟨?_, ?_⟩
    · rw [le_div_iff₀ hd']
      calc (2 : ℝ) ^ (ln - ld - 1) * d
        _ ≤ 2 ^ (ln - ld - 1) * 2 ^ (ld + 1) := by gcongr
        _ = 2 ^ ln := by rw [← zpow_add₀ two_ne_zero]; congr 1; ring
        _ ≤ n := hnlow
    · rw [sub_add_cancel]
      exact not_le.1 hle

theorem Mag.log2_spec {a : Mag} (ha : a.positive) : (2 : ℝ) ^ a.log2 ≤ magReal a ∧ magReal a < 2 ^ (a.log2 + 1) := by
  cases a with
  | ratio n d => exact ratioLog2_spec ha.1 ha.2
  | root n d =>
    obtain ⟨hlow, hhigh⟩ := ratioLog2_spec ha.1 ha.2
    have hsq (e : Int) : ((2 : ℝ) ^ e) ^ 2 = 2 ^ (2 * e) := by rw [mul_comm, zpow_mul, zpow_ofNat]
    simp only [Mag.log2, magReal]
    constructor
    · apply Real.le_sqrt_of_sq_le
      rw [hsq]
      exact (two_zpow_le_iff_lt.2 (by omega)).trans hlow
    · rw [Real.sqrt_lt' (by positivity), hsq]
      exact hhigh.trans_le (two_zpow_le_iff_lt.2 (by omega))

end Sys2Proof.Machine

namespace Sys2Proof.Machine

/-! ### The constants of a format (42_fp_numerics.md rule R140) -/

theorem emin_eq_fracBits_sub_scale (F : Fmt) : F.emin = F.fracBits - F.scale := by cases F <;> rfl

theorem emin_eq_one_sub_bias (F : Fmt) : F.emin = 1 - F.bias := by cases F <;> rfl

theorem emax_eq_bias (F : Fmt) : F.emax = F.bias := by cases F <;> rfl

theorem expOnes_eq (F : Fmt) : F.expOnes = 2 * F.bias + 1 := by cases F <;> rfl

theorem expOnes_lt (F : Fmt) : F.expOnes < 2 ^ F.expBits := by cases F <;> decide

theorem bias_pos (F : Fmt) : 0 < F.bias := by cases F <;> decide

theorem two_pow_prec (F : Fmt) : 2 ^ F.prec = 2 * 2 ^ F.fracBits := Nat.pow_succ'

theorem even_two_pow_fracBits (F : Fmt) : 2 ^ F.fracBits % 2 = 0 := by cases F <;> rfl

/-! ### Comparison with a power of two -/

theorem natCast_lt_two_zpow (m n : Nat) (k : Int) : (m : ℝ) * 2 ^ k < 2 ^ (k + n) ↔ m < 2 ^ n := by
  rw [zpow_add₀ two_ne_zero, zpow_natCast, mul_comm, mul_lt_mul_iff_right₀ (zpow_pos two_pos _)]
  exact_mod_cast Iff.rfl

theorem belowPow2_iff (m : Nat) (k j : Int) : belowPow2 m k j = true ↔ (m : ℝ) * 2 ^ k < 2 ^ j := by
  unfold belowPow2
  split_ifs with hkj
  · obtain ⟨n, rfl⟩ : ∃ n : ℕ, j = k + n := ⟨(j - k).toNat, by omega⟩
    rw [natCast_lt_two_zpow, add_sub_cancel_left, Int.toNat_natCast, decide_eq_true_iff]
  · rw [decide_eq_true_iff]
    constructor
    · rintro rfl
      simp only [Nat.cast_zero, zero_mul]
      exact zpow_pos two_pos j
    · intro hlt
      by_contra hm
      have hone : (1 : ℝ) ≤ m := by exact_mod_cast Nat.one_le_iff_ne_zero.2 hm
      have hjk : (2 : ℝ) ^ j ≤ 2 ^ k := two_zpow_le_iff_lt.2 (by omega)
      have hk : (0 : ℝ) < 2 ^ k := zpow_pos two_pos k
      nlinarith

/-- m·2^k stays below 2^j where m has n bits and the top one stands below j. -/
theorem belowPow2_of_lt {m n : Nat} {k j : Int} (hm : m < 2 ^ n) (hk : k + n ≤ j) : belowPow2 m k j = true :=
  (belowPow2_iff m k j).2 (((natCast_lt_two_zpow m n k).2 hm).trans_le (two_zpow_le_iff_lt.2 hk))

theorem lt_of_belowPow2 {m n : Nat} {k j : Int} (h : belowPow2 m k j = true) (hm : 2 ^ n ≤ m) : k + n < j := by
  by_contra hj
  have hle := two_zpow_le_iff_lt.2 (not_lt.1 hj)
  exact (Nat.not_lt.2 hm) ((natCast_lt_two_zpow m n k).1 (((belowPow2_iff m k j).1 h).trans_le hle))

/-! ### The word of a representable magnitude (42_fp_numerics.md rule R153) -/

theorem unitsOf_packFields (F : Fmt) (neg : Bool) {E T : Nat} (hE : E < 2 ^ F.expBits) (hT : T < 2 ^ F.fracBits) :
    unitsOf F (packFields F neg E T) = if E = 0 then T else (2 ^ F.fracBits + T) * 2 ^ (E - 1) := by
  rw [unitsOf, expOf_packFields F neg E T hE hT, fracOf_packFields F neg E T hE hT]

/-- x is the finite word of sign `neg` and magnitude r·2^q, with an even fraction field for an even r. -/
structure IsWordOf (F : Fmt) (neg : Bool) (r : Nat) (q : Int) (x : BitVec F.width) : Prop where
  sign : signOf F x = neg
  finite : isFinite F x = true
  units : unitsOf F x = r * 2 ^ (q + F.scale).toNat
  even : r % 2 = 0 → fracOf F x % 2 = 0

theorem isWordOf_packFields {F : Fmt} {neg : Bool} {r E T : Nat} {q : Int} (hE : E < F.expOnes) (hT : T < 2 ^ F.fracBits)
    (hunits : (if E = 0 then T else (2 ^ F.fracBits + T) * 2 ^ (E - 1)) = r * 2 ^ (q + F.scale).toNat)
    (heven : r % 2 = 0 → T % 2 = 0) : IsWordOf F neg r q (packFields F neg E T) := by
  have hE' := hE.trans (expOnes_lt F)
  refine ⟨signOf_packFields F neg E T hE' hT, isFinite_iff.2 ?_, ?_, ?_⟩
  · rw [expOf_packFields F neg E T hE' hT]
    exact hE.ne
  · rw [unitsOf_packFields F neg hE' hT, hunits]
  · rwa [fracOf_packFields F neg E T hE' hT]

/-- r is a significand of the format at the quantum 2^q: of p bits, or 2^p, and short of p bits at the least quantum only. -/
structure IsSignificand (F : Fmt) (r : Nat) (q : Int) : Prop where
  le : r ≤ 2 ^ F.prec
  quantum : -(F.scale : Int) ≤ q
  normal : q = -F.scale ∨ 2 ^ F.fracBits ≤ r

section Encode
variable {F : Fmt} {r : Nat} {q : Int} (h : IsSignificand F r q) (neg : Bool)
include h

/-- Below 2^emin the quantum is the least one and r the fraction field. -/
theorem IsSignificand.subnormal (hlow : belowPow2 r q F.emin = true) : q = -F.scale ∧ r < 2 ^ F.fracBits := by
  have hemin := emin_eq_fracBits_sub_scale F
  have hr : r < 2 ^ F.fracBits := by
    by_contra hr
    have := lt_of_belowPow2 hlow (not_lt.1 hr)
    have := h.quantum
    omega
  exact ⟨h.normal.resolve_right (not_le.2 hr), hr⟩

theorem IsSignificand.isWordOf_subnormal (hlow : belowPow2 r q F.emin = true) :
    IsWordOf F neg r q (packFields F neg 0 r) := by
  obtain ⟨rfl, hr⟩ := h.subnormal hlow
  refine isWordOf_packFields (Nat.pos_of_ne_zero (expOnes_ne_zero F)) hr ?_ id
  rw [if_pos rfl, neg_add_cancel, Int.toNat_zero, pow_zero, mul_one]

theorem IsSignificand.two_pow_le (hhigh : belowPow2 r q F.emin = false) : 2 ^ F.fracBits ≤ r := by
  refine h.normal.elim (fun hq => ?_) id
  by_contra hr
  have hemin := emin_eq_fracBits_sub_scale F
  exact absurd (belowPow2_of_lt (not_le.1 hr) (k := q) (j := F.emin) (by omega)) (by simp [hhigh])

/-- From 2^emin on the exponent field counts the binades, and the significand's top bit is hidden. -/
theorem IsSignificand.isWordOf_normal (hhigh : belowPow2 r q F.emin = false)
    (hmax : belowPow2 r q (F.emax + 1) = true) :
    IsWordOf F neg r q (packFields F neg (((Nat.log2 r : Int) + q) + F.bias).toNat
      ((scaleRatio r 1 ((Nat.log2 r : Int) - (F.fracBits : Int))).1 /
        (scaleRatio r 1 ((Nat.log2 r : Int) - (F.fracBits : Int))).2 - 2 ^ F.fracBits)) := by
  have hemin := emin_eq_fracBits_sub_scale F
  have hemin' := emin_eq_one_sub_bias F
  have hemax := emax_eq_bias F
  have hones := expOnes_eq F
  have hprec := two_pow_prec F
  have heven := even_two_pow_fracBits F
  have hquantum := h.quantum
  have hpos := Nat.two_pow_pos F.fracBits
  have hlow := h.two_pow_le hhigh
  rcases h.le.lt_or_eq with hlt | heq
  · -- p bits
    have hlog : Nat.log2 r = F.fracBits := (Nat.log2_eq_iff (by omega)).2 ⟨hlow, hlt⟩
    have hbound := lt_of_belowPow2 hmax hlow
    have hsig : (scaleRatio r 1 0).1 / (scaleRatio r 1 0).2 = r := by simp [scaleRatio]
    rw [hlog, sub_self, hsig]
    refine isWordOf_packFields (by omega) (by omega) ?_ (by omega)
    rw [if_neg (by omega), Nat.add_sub_cancel' hlow]
    congr 2
    omega
  · -- the next power of two
    subst heq
    have hlog : Nat.log2 (2 ^ F.prec) = F.fracBits + 1 := Nat.log2_two_pow
    have hbound := lt_of_belowPow2 hmax le_rfl
    have hsig : (scaleRatio (2 ^ F.prec) 1 1).1 / (scaleRatio (2 ^ F.prec) 1 1).2 = 2 ^ F.fracBits := by
      simp [scaleRatio, hprec]
    have hpc : (F.prec : Int) = F.fracBits + 1 := rfl
    rw [hlog, Nat.cast_add_one, add_sub_cancel_left, hsig, Nat.sub_self]
    refine isWordOf_packFields (by omega) hpos ?_ fun _ => rfl
    rw [if_neg (by omega), Nat.add_zero, ← pow_add, ← pow_add]
    congr 1
    omega

theorem IsSignificand.isWordOf_encodeMag (hmax : belowPow2 r q (F.emax + 1) = true) :
    IsWordOf F neg r q (encodeMag F neg r q) := by
  unfold encodeMag
  split_ifs with hzero hlow
  · subst hzero
    refine isWordOf_packFields (Nat.pos_of_ne_zero (expOnes_ne_zero F)) (Nat.two_pow_pos _) ?_ id
    rw [if_pos rfl, zero_mul]
  · exact h.isWordOf_subnormal neg hlow
  · exact h.isWordOf_normal neg (eq_false_of_ne_true hlow) hmax

end Encode

end Sys2Proof.Machine

namespace Sys2Proof.Machine

/-! ### Signed reals, and the real of a word -/

/-- ±x. -/
def signedReal (neg : Bool) (x : ℝ) : ℝ := if neg then -x else x

theorem signedMag_eq (neg : Bool) (a : Mag) : signedMag neg a = signedReal neg (magReal a) := rfl

@[simp] theorem signedReal_signedReal (neg : Bool) (x : ℝ) : signedReal neg (signedReal neg x) = x := by
  cases neg <;> simp [signedReal]

theorem signedReal_inj {neg : Bool} {x y : ℝ} : signedReal neg x = signedReal neg y ↔ x = y := by
  cases neg <;> simp [signedReal]

theorem abs_signedReal (neg : Bool) (x : ℝ) : |signedReal neg x| = |x| := by
  cases neg <;> simp [signedReal]

theorem signedReal_sub (neg : Bool) (x y : ℝ) : signedReal neg x - signedReal neg y = signedReal neg (x - y) := by
  cases neg
  · rfl
  · simp only [signedReal, if_true]
    ring

theorem abs_signedReal_sub (neg : Bool) (x y : ℝ) : |signedReal neg x - signedReal neg y| = |x - y| := by
  rw [signedReal_sub, abs_signedReal]

theorem signedReal_mul_signedReal (neg : Bool) (x y : ℝ) : signedReal neg x * signedReal neg y = x * y := by
  cases neg <;> simp [signedReal]

/-- The magnitude of a word's value. -/
theorem valueQ_eq_signedReal (F : Fmt) (x : BitVec F.width) :
    (valueQ F x : ℝ) = signedReal (signOf F x) (unitsOf F x * 2 ^ (-(F.scale : Int))) := by
  have hexp : F.emin - F.fracBits = -(F.scale : Int) := by rw [emin_eq_fracBits_sub_scale]; ring
  rw [valueQ_eq_valueOf_mul, hexp]
  cases h : signOf F x with
  | false => simp [valueOf_of_positive h, signedReal]
  | true => simp [valueOf_of_negative h, signedReal]

theorem abs_valueQ_eq (F : Fmt) (x : BitVec F.width) : |(valueQ F x : ℝ)| = unitsOf F x * 2 ^ (-(F.scale : Int)) := by
  rw [valueQ_eq_signedReal, abs_signedReal, abs_of_nonneg (by positivity)]

theorem two_zpow_toNat_mul {F : Fmt} {q : Int} (hq : -(F.scale : Int) ≤ q) (m : ℝ) :
    m * 2 ^ (q + F.scale).toNat * 2 ^ (-(F.scale : Int)) = m * 2 ^ q := by
  rw [mul_assoc, ← zpow_natCast, ← zpow_add₀ two_ne_zero]
  congr 2
  omega

theorem IsWordOf.valueQ_eq {F : Fmt} {neg : Bool} {r : Nat} {q : Int} {x : BitVec F.width} (h : IsWordOf F neg r q x)
    (hq : -(F.scale : Int) ≤ q) : (valueQ F x : ℝ) = signedReal neg (r * 2 ^ q) := by
  rw [valueQ_eq_signedReal, h.sign, h.units]
  push_cast
  rw [two_zpow_toNat_mul hq]

/-! ### No word lies between two neighbours of the grid -/

/-- y is not strictly between lo and hi. -/
def Outside (lo hi y : ℝ) : Prop := y ≤ lo ∨ hi ≤ y

theorem units_outside {F : Fmt} {n : Nat} {q : Int} (h : q = -(F.scale : Int) ∨ 2 ^ F.fracBits ≤ n)
    (x : BitVec F.width) :
    unitsOf F x ≤ n * 2 ^ (q + F.scale).toNat ∨ (n + 1) * 2 ^ (q + F.scale).toNat ≤ unitsOf F x := by
  generalize hj : (q + F.scale).toNat = j
  -- where the quantum divides the units, they are a multiple of it
  have hmultiple : 2 ^ j ∣ unitsOf F x → unitsOf F x ≤ n * 2 ^ j ∨ (n + 1) * 2 ^ j ≤ unitsOf F x := by
    rintro ⟨m, hm⟩
    rw [hm, mul_comm]
    exact (Nat.lt_or_ge n m).symm.imp (Nat.mul_le_mul_right _) (Nat.mul_le_mul_right _)
  rcases h with hq | hn
  · obtain rfl : j = 0 := by omega
    exact hmultiple (one_dvd _)
  · by_cases hexp : j < expOf F x
    · apply hmultiple
      rw [unitsOf_of_expOf_ne_zero (by omega)]
      exact dvd_mul_of_dvd_right (pow_dvd_pow 2 (by omega)) _
    · refine .inl ?_
      calc unitsOf F x
        _ ≤ 2 ^ (F.fracBits + expOf F x) := (unitsOf_lt_two_pow F x).le
        _ ≤ 2 ^ (F.fracBits + j) := Nat.pow_le_pow_right two_pos (by omega)
        _ ≤ n * 2 ^ j := by rw [pow_add]; exact Nat.mul_le_mul_right _ hn

section Outside
variable {F : Fmt} {n : Nat} {q : Int} (hq : -(F.scale : Int) ≤ q) (h : q = -(F.scale : Int) ∨ 2 ^ F.fracBits ≤ n)
include hq h

theorem abs_valueQ_outside (x : BitVec F.width) : Outside (n * 2 ^ q) ((n + 1) * 2 ^ q) |(valueQ F x : ℝ)| := by
  rw [abs_valueQ_eq, ← two_zpow_toNat_mul hq, ← two_zpow_toNat_mul hq]
  have hpos : (0 : ℝ) ≤ 2 ^ (-(F.scale : Int)) := by positivity
  refine (units_outside h x).imp (fun hle => ?_) fun hle => ?_
  · exact mul_le_mul_of_nonneg_right (by exact_mod_cast hle) hpos
  · exact mul_le_mul_of_nonneg_right (by exact_mod_cast hle) hpos

theorem signed_valueQ_outside (neg : Bool) (x : BitVec F.width) :
    Outside (n * 2 ^ q) ((n + 1) * 2 ^ q) (signedReal neg (valueQ F x)) := by
  rcases le_or_gt 0 (signedReal neg (valueQ F x)) with hpos | hneg
  · have hout := abs_valueQ_outside hq h x
    rwa [← abs_signedReal neg, abs_of_nonneg hpos] at hout
  · exact .inl (hneg.le.trans (by positivity))

end Outside

/-! ### The choice between two neighbours (42_fp_numerics.md rule R152) -/

/-- r is the greatest value of the grid at or below x. -/
def IsFloor (lo hi x r : ℝ) : Prop := r ≤ x ∧ ∀ y, Outside lo hi y → y ≤ x → y ≤ r

/-- r is the least value of the grid at or above x. -/
def IsCeil (lo hi x r : ℝ) : Prop := x ≤ r ∧ ∀ y, Outside lo hi y → x ≤ y → r ≤ y

/-- No value of the grid is nearer to x than r. -/
def IsNearest (lo hi x r : ℝ) : Prop := ∀ y, Outside lo hi y → |r - x| ≤ |y - x|

section Choice
variable {fr : Frac} {lo hi x : ℝ} (h : Between fr lo hi x)
include h

theorem Between.le_two_mul (hfr : fr = .high ∨ fr = .half) : lo + hi ≤ 2 * x := by
  rcases hfr with rfl | rfl
  · exact h.1.le
  · exact h.ge

variable (hlt : lo < hi)
include hlt

theorem Between.isFloor_lo : IsFloor lo hi x lo := by
  obtain ⟨hlo, hhi⟩ := h.mem_Ico hlt
  refine ⟨hlo, fun y hy hyx => hy.resolve_right fun hy => ?_⟩
  linarith

theorem Between.isCeil_lo (hfr : fr = .zero) : IsCeil lo hi x lo := by
  subst hfr
  obtain rfl : x = lo := h
  exact ⟨le_rfl, fun _ _ => id⟩

theorem Between.isCeil_hi (hfr : fr ≠ .zero) : IsCeil lo hi x hi := by
  have hlo := h.pos_of_ne_zero hlt hfr
  refine ⟨(h.mem_Ico hlt).2.le, fun y hy hxy => hy.resolve_left fun hy => ?_⟩
  linarith

theorem Between.two_mul_le (hfr : fr ≠ .high) : 2 * x ≤ lo + hi := by
  cases fr <;> simp only [Between] at h
  case high => exact absurd rfl hfr
  all_goals linarith

theorem Between.isNearest_lo (hfr : fr ≠ .high) : IsNearest lo hi x lo := by
  obtain ⟨hlo, hhi⟩ := h.mem_Ico hlt
  have hmid := h.two_mul_le hlt hfr
  intro y hy
  rw [abs_of_nonpos (by linarith), le_abs]
  rcases hy with hy | hy
  · exact .inr (by linarith)
  · exact .inl (by linarith)

theorem Between.isNearest_hi (hfr : fr = .high ∨ fr = .half) : IsNearest lo hi x hi := by
  obtain ⟨hlo, hhi⟩ := h.mem_Ico hlt
  have hmid := h.le_two_mul hfr
  intro y hy
  rw [abs_of_nonneg (by linarith), le_abs]
  rcases hy with hy | hy
  · exact .inr (by linarith)
  · exact .inl (by linarith)

theorem Between.eq_half (hmid : 2 * x = lo + hi) : fr = .half := by
  cases fr <;> simp only [Between] at h
  case half => rfl
  all_goals linarith

/-- Two different values of the grid are as near only in the middle, and are then the two neighbours. -/
theorem Between.eq_of_tie {r y : ℝ} (hr : r = lo ∧ fr ≠ .high ∨ r = hi ∧ (fr = .high ∨ fr = .half))
    (hy : Outside lo hi y) (htie : |y - x| = |r - x|) : y = r ∨ fr = .half ∧ (y = lo ∨ y = hi) := by
  obtain ⟨hlo, hhi⟩ := h.mem_Ico hlt
  rcases hr with ⟨rfl, hfr⟩ | ⟨rfl, hfr⟩ <;> rcases hy with hy | hy
  case inl.inl =>
    rw [abs_of_nonpos (by linarith), abs_of_nonpos (by linarith)] at htie
    exact .inl (by linarith)
  case inl.inr =>
    have hmid := h.two_mul_le hlt hfr
    rw [abs_of_nonneg (by linarith), abs_of_nonpos (by linarith)] at htie
    exact .inr ⟨h.eq_half hlt (by linarith), .inr (by linarith)⟩
  case inr.inl =>
    have hmid := h.le_two_mul hfr
    rw [abs_of_nonpos (by linarith), abs_of_nonneg (by linarith)] at htie
    exact .inr ⟨h.eq_half hlt (by linarith), .inl (by linarith)⟩
  case inr.inr =>
    rw [abs_of_nonneg (by linarith), abs_of_nonneg (by linarith)] at htie
    exact .inl (by linarith)

end Choice

/-! ### What `roundInt` chooses -/

/-- n, or n + 1 for a fraction. -/
def awayInt (n : Nat) (fr : Frac) : Nat := if fr = .zero then n else n + 1

theorem roundInt_rdn (n : Nat) (fr : Frac) (neg : Bool) : roundInt n fr neg .rdn = if neg then awayInt n fr else n := by
  cases fr <;> cases neg <;> rfl

theorem roundInt_rup (n : Nat) (fr : Frac) (neg : Bool) : roundInt n fr neg .rup = if neg then n else awayInt n fr := by
  cases fr <;> cases neg <;> rfl

/-- The two modes to nearest choose a nearest neighbour. -/
theorem roundInt_nearest (n : Nat) (fr : Frac) (neg : Bool) {mode : Mode} (hmode : mode = .rne ∨ mode = .rmm) :
    (roundInt n fr neg mode = n ∧ fr ≠ .high) ∨ (roundInt n fr neg mode = n + 1 ∧ (fr = .high ∨ fr = .half)) := by
  rcases hmode with rfl | rfl <;> cases fr <;> simp [roundInt]
  exact Nat.mod_two_eq_zero_or_one n

theorem roundInt_rne_half_even (n : Nat) (neg : Bool) : roundInt n .half neg .rne % 2 = 0 := by
  simp only [roundInt]
  split_ifs with heven
  · exact heven
  · omega

theorem roundInt_zero (n : Nat) (neg : Bool) (mode : Mode) : roundInt n .zero neg mode = n := by cases mode <;> rfl

theorem roundInt_eq_or (n : Nat) (fr : Frac) (neg : Bool) (mode : Mode) :
    roundInt n fr neg mode = n ∨ roundInt n fr neg mode = n + 1 := by
  cases mode with
  | rne => exact (roundInt_nearest n fr neg (.inl rfl)).imp And.left And.left
  | rmm => exact (roundInt_nearest n fr neg (.inr rfl)).imp And.left And.left
  | rtz => exact .inl rfl
  | rdn | rup => cases fr <;> cases neg <;> simp [roundInt]

section Grid
variable {n : Nat} {fr : Frac} {u x : ℝ} (h : Between fr (n * u) ((n + 1) * u) x) (hu : 0 < u)
include hu

theorem natCast_mul_lt : (n : ℝ) * u < (n + 1) * u := by linarith

include h

theorem isFloor_grid : IsFloor (n * u) ((n + 1) * u) x (n * u) := h.isFloor_lo (natCast_mul_lt hu)

theorem isCeil_awayInt : IsCeil (n * u) ((n + 1) * u) x (awayInt n fr * u) := by
  unfold awayInt
  split_ifs with hfr
  · exact h.isCeil_lo (natCast_mul_lt hu) hfr
  · push_cast
    exact h.isCeil_hi (natCast_mul_lt hu) hfr

theorem roundInt_rdn_directed (neg : Bool) :
    if neg then IsCeil (n * u) ((n + 1) * u) x (roundInt n fr neg .rdn * u)
    else IsFloor (n * u) ((n + 1) * u) x (roundInt n fr neg .rdn * u) := by
  rw [roundInt_rdn]
  cases neg
  · exact isFloor_grid h hu
  · exact isCeil_awayInt h hu

theorem roundInt_rup_directed (neg : Bool) :
    if neg then IsFloor (n * u) ((n + 1) * u) x (roundInt n fr neg .rup * u)
    else IsCeil (n * u) ((n + 1) * u) x (roundInt n fr neg .rup * u) := by
  rw [roundInt_rup]
  cases neg
  · exact isCeil_awayInt h hu
  · exact isFloor_grid h hu

section Nearest
variable (neg : Bool) {mode : Mode} (hmode : mode = .rne ∨ mode = .rmm)
include hmode

theorem isNearest_roundInt : IsNearest (n * u) ((n + 1) * u) x (roundInt n fr neg mode * u) := by
  rcases roundInt_nearest n fr neg hmode with ⟨hr, hfr⟩ | ⟨hr, hfr⟩ <;> rw [hr]
  · exact h.isNearest_lo (natCast_mul_lt hu) hfr
  · push_cast
    exact h.isNearest_hi (natCast_mul_lt hu) hfr

theorem eq_roundInt_of_tie {y : ℝ} (hy : Outside (n * u) ((n + 1) * u) y)
    (htie : |y - x| = |roundInt n fr neg mode * u - x|) :
    y = roundInt n fr neg mode * u ∨ fr = .half ∧ (y = n * u ∨ y = (n + 1) * u) := by
  refine h.eq_of_tie (natCast_mul_lt hu) ?_ hy htie
  refine (roundInt_nearest n fr neg hmode).imp (And.imp_left fun hr => ?_) (And.imp_left fun hr => ?_)
  · rw [hr]
  · rw [hr]
    push_cast
    rfl

end Nearest

end Grid

/-! ### Under a sign, the floor of the magnitude is the ceiling of the value -/

section Directed
variable {lo hi x r : ℝ} (neg : Bool)

theorem signedReal_floor (h : if neg then IsCeil lo hi x r else IsFloor lo hi x r) :
    signedReal neg r ≤ signedReal neg x ∧
      ∀ y, Outside lo hi (signedReal neg y) → y ≤ signedReal neg x → y ≤ signedReal neg r := by
  cases neg with
  | false => exact h
  | true =>
    refine ⟨neg_le_neg h.1, fun y hy hyx => ?_⟩
    exact le_neg.2 (h.2 _ hy (le_neg.2 hyx))

theorem signedReal_ceil (h : if neg then IsFloor lo hi x r else IsCeil lo hi x r) :
    signedReal neg x ≤ signedReal neg r ∧
      ∀ y, Outside lo hi (signedReal neg y) → signedReal neg x ≤ y → signedReal neg r ≤ y := by
  cases neg with
  | false => exact h
  | true =>
    refine ⟨neg_le_neg h.1, fun y hy hyx => ?_⟩
    exact neg_le.2 (h.2 _ hy (neg_le.2 hyx))

end Directed

/-! ### The chosen word is the correct rounding -/

theorem valueQ_le_valueQ {F : Fmt} {x y : BitVec F.width} : valueQ F x ≤ valueQ F y ↔ (valueQ F x : ℝ) ≤ valueQ F y :=
  Rat.cast_le.symm

theorem abs_valueQ_le_abs_valueQ {F : Fmt} {x y : BitVec F.width} :
    |valueQ F x| ≤ |valueQ F y| ↔ |(valueQ F x : ℝ)| ≤ |(valueQ F y : ℝ)| := by
  rw [← Rat.cast_abs, ← Rat.cast_abs, Rat.cast_le]

section Rounds
variable {F : Fmt} {neg : Bool} {mode : Mode} {n : Nat} {fr : Frac} {q : Int} {x : ℝ} {r : BitVec F.width}
  (hq : -(F.scale : Int) ≤ q) (hn : q = -(F.scale : Int) ∨ 2 ^ F.fracBits ≤ n)
  (hx : Between fr (n * (2 : ℝ) ^ q) ((n + 1) * (2 : ℝ) ^ q) x) (hr : IsWordOf F neg (roundInt n fr neg mode) q r)
include hq hn hx hr

/-- The modes to nearest: no word is nearer, and one as near has the same value or is a neighbour of the middle. -/
theorem IsWordOf.nearest (hmode : mode = .rne ∨ mode = .rmm) (y : BitVec F.width) :
    |(valueQ F r : ℝ) - signedReal neg x| ≤ |(valueQ F y : ℝ) - signedReal neg x| ∧
    (|(valueQ F y : ℝ) - signedReal neg x| = |(valueQ F r : ℝ) - signedReal neg x| →
      (valueQ F y : ℝ) = valueQ F r ∨ fr = .half ∧ |(valueQ F y : ℝ)| ≤ (n + 1) * 2 ^ q) := by
  have hu : (0 : ℝ) < 2 ^ q := zpow_pos two_pos q
  have hlt := natCast_mul_lt (n := n) hu
  have hout := signed_valueQ_outside hq hn neg y
  rw [hr.valueQ_eq hq, ← signedReal_signedReal neg (valueQ F y), abs_signedReal_sub, abs_signedReal_sub, signedReal_inj,
    abs_signedReal]
  refine ⟨isNearest_roundInt hx hu neg hmode _ hout, fun htie => ?_⟩
  refine (eq_roundInt_of_tie hx hu neg hmode hout htie).imp_right (And.imp_right fun hy => ?_)
  have hpos : (0 : ℝ) ≤ n * 2 ^ q := by positivity
  rw [abs_le]
  rcases hy with hy | hy <;> rw [hy] <;> constructor <;> linarith

theorem IsWordOf.rounds : Rounds F mode (signedReal neg x) r := by
  have hu : (0 : ℝ) < 2 ^ q := zpow_pos two_pos q
  have hval := hr.valueQ_eq hq
  have hout (y : BitVec F.width) := signed_valueQ_outside hq hn neg y
  refine ⟨hr.finite, ?_⟩
  cases mode with
  | rdn =>
    simp only [valueQ_le_valueQ, hval]
    obtain ⟨hle, hgreatest⟩ := signedReal_floor neg (roundInt_rdn_directed hx hu neg)
    exact ⟨hle, fun y _ => hgreatest _ (hout y)⟩
  | rup =>
    simp only [valueQ_le_valueQ, hval]
    obtain ⟨hle, hleast⟩ := signedReal_ceil neg (roundInt_rup_directed hx hu neg)
    exact ⟨hle, fun y _ => hleast _ (hout y)⟩
  | rtz =>
    have hlo : (0 : ℝ) ≤ roundInt n fr neg .rtz * 2 ^ q := by positivity
    have hfloor : IsFloor (n * 2 ^ q) ((n + 1) * 2 ^ q) x (roundInt n fr neg .rtz * 2 ^ q) := isFloor_grid hx hu
    have hxpos : 0 ≤ x := hlo.trans hfloor.1
    simp only [abs_valueQ_le_abs_valueQ, hval, abs_signedReal, signedReal_mul_signedReal, abs_of_nonneg hlo,
      abs_of_nonneg hxpos]
    exact ⟨hfloor.1, mul_nonneg hlo hxpos, fun y _ => hfloor.2 _ (abs_valueQ_outside hq hn y)⟩
  | rne =>
    have hnearest := hr.nearest hq hn hx (.inl rfl)
    refine ⟨fun y _ => (hnearest y).1, fun y _ hne htie => ?_⟩
    obtain hy | ⟨rfl, -⟩ := (hnearest y).2 htie
    · exact absurd (Rat.cast_injective hy) hne
    · exact hr.even (roundInt_rne_half_even n neg)
  | rmm =>
    have hnearest := hr.nearest hq hn hx (.inr rfl)
    refine ⟨fun y _ => (hnearest y).1, fun y _ htie => ?_⟩
    rw [abs_valueQ_le_abs_valueQ]
    obtain hy | ⟨rfl, hy⟩ := (hnearest y).2 htie
    · rw [hy]
    · have hint : ((roundInt n .half neg .rmm : Nat) : ℝ) = n + 1 := Nat.cast_succ n
      rwa [hval, abs_signedReal, hint, abs_of_nonneg (a := ((n : ℝ) + 1) * 2 ^ q) (by positivity)]

end Rounds

end Sys2Proof.Machine

namespace Sys2Proof.Machine

/-! ### The significand of a magnitude -/

theorem Mag.split_lt {a : Mag} (ha : a.positive) {k : Int} {n : Nat} (h : a.log2 + 1 ≤ k + n) : (a.split k).1 < 2 ^ n := by
  have hu : (0 : ℝ) < 2 ^ k := zpow_pos two_pos k
  have hlow := ((a.between_split ha k).mem_Ico (natCast_mul_lt hu)).1
  refine (natCast_lt_two_zpow _ n k).1 (hlow.trans_lt ?_)
  exact (a.log2_spec ha).2.trans_le (two_zpow_le_iff_lt.2 h)

theorem Mag.two_pow_le_split {a : Mag} (ha : a.positive) {k : Int} {n : Nat} (h : k + n ≤ a.log2) :
    2 ^ n ≤ (a.split k).1 := by
  have hu : (0 : ℝ) < 2 ^ k := zpow_pos two_pos k
  have hhigh := ((a.between_split ha k).mem_Ico (natCast_mul_lt hu)).2
  by_contra hlt
  have hle : ((a.split k).1 + 1 : ℝ) ≤ 2 ^ n := by exact_mod_cast not_le.1 hlt
  have hpow : (2 : ℝ) ^ (k + n) = 2 ^ n * 2 ^ k := by rw [zpow_add₀ two_ne_zero, zpow_natCast, mul_comm]
  have hge := (two_zpow_le_iff_lt.2 h).trans (a.log2_spec ha).1
  nlinarith

/-- The exponent of the quantum at which a magnitude is rounded (42_fp_numerics.md rule R153). -/
def quantum (F : Fmt) (a : Mag) : Int := max a.log2 F.emin - F.prec + 1

section Significand
variable (F : Fmt) {a : Mag} (ha : a.positive)

theorem neg_scale_le_quantum (a : Mag) : -(F.scale : Int) ≤ quantum F a := by
  have hemin := emin_eq_fracBits_sub_scale F
  have hprec : (F.prec : Int) = F.fracBits + 1 := rfl
  unfold quantum
  omega

include ha

theorem split_quantum_lt : (a.split (quantum F a)).1 < 2 ^ F.prec :=
  a.split_lt ha (by unfold quantum; omega)

theorem quantum_eq_or_two_pow_le :
    quantum F a = -(F.scale : Int) ∨ 2 ^ F.fracBits ≤ (a.split (quantum F a)).1 := by
  have hemin := emin_eq_fracBits_sub_scale F
  have hprec : (F.prec : Int) = F.fracBits + 1 := rfl
  rcases le_total a.log2 F.emin with hle | hge
  · exact .inl (by unfold quantum; omega)
  · exact .inr (a.two_pow_le_split ha (by unfold quantum; omega))

theorem isSignificand_roundInt (neg : Bool) (mode : Mode) :
    IsSignificand F (roundInt (a.split (quantum F a)).1 (a.split (quantum F a)).2 neg mode) (quantum F a) := by
  have hlt := split_quantum_lt F ha
  have hor := roundInt_eq_or (a.split (quantum F a)).1 (a.split (quantum F a)).2 neg mode
  exact ⟨by omega, neg_scale_le_quantum F a, (quantum_eq_or_two_pow_le F ha).imp_right (by omega)⟩

end Significand

/-! ### When the rounded magnitude reaches a power of two (42_fp_numerics.md rules R154, R155) -/

/-- The magnitude x is rounded to `top` or beyond, where `pred` is the value before `top`. -/
def Reaches (neg : Bool) (mode : Mode) (pred top x : ℝ) : Prop :=
  match mode with
  | .rne | .rmm => pred + top ≤ 2 * x
  | .rtz => top ≤ x
  | .rdn => if neg then pred < x else top ≤ x
  | .rup => if neg then top ≤ x else pred < x

section Reaches
variable {neg : Bool} {mode : Mode} {pred top x : ℝ}

theorem reaches_of_le (hlt : pred < top) (h : top ≤ x) : Reaches neg mode pred top x := by
  cases mode <;> simp only [Reaches]
  case rtz => exact h
  case rdn | rup => split_ifs <;> linarith
  all_goals linarith

theorem not_reaches_of_lt (hlt : pred < top) (h : x < pred) : ¬ Reaches neg mode pred top x := by
  cases mode <;> simp only [Reaches]
  case rdn | rup => split_ifs <;> linarith
  all_goals linarith

end Reaches

section Neighbours
variable {n : Nat} {fr : Frac} {lo hi u x : ℝ}

theorem roundInt_nearest_eq_succ_iff (hodd : n % 2 = 1) (neg : Bool) {mode : Mode} (hmode : mode = .rne ∨ mode = .rmm) :
    roundInt n fr neg mode = n + 1 ↔ fr = .high ∨ fr = .half := by
  rcases hmode with rfl | rfl <;> cases fr <;> simp [roundInt, hodd]

theorem awayInt_eq_succ_iff : awayInt n fr = n + 1 ↔ fr ≠ .zero := by
  unfold awayInt
  split_ifs with h <;> simp [h]

theorem Between.middle_le_iff (h : Between fr lo hi x) (hlt : lo < hi) :
    fr = .high ∨ fr = .half ↔ lo + hi ≤ 2 * x := by
  refine ⟨h.le_two_mul, fun hle => ?_⟩
  by_contra hfr
  obtain ⟨hhigh, hhalf⟩ := not_or.1 hfr
  exact hhalf (h.eq_half hlt (le_antisymm (h.two_mul_le hlt hhigh) hle))

theorem Between.ne_zero_iff (h : Between fr lo hi x) (hlt : lo < hi) : fr ≠ .zero ↔ lo < x := by
  refine ⟨h.pos_of_ne_zero hlt, ?_⟩
  rintro hx rfl
  exact hx.ne' h

/-- From an odd n the rounding goes up to n + 1 exactly where the magnitude reaches it. -/
theorem roundInt_eq_succ_iff (h : Between fr lo hi x) (hlt : lo < hi) (hodd : n % 2 = 1) (neg : Bool) (mode : Mode) :
    roundInt n fr neg mode = n + 1 ↔ Reaches neg mode lo hi x := by
  have hx := (h.mem_Ico hlt).2
  have hnever : n = n + 1 ↔ hi ≤ x := by simp [hx]
  have haway : awayInt n fr = n + 1 ↔ lo < x := awayInt_eq_succ_iff.trans (h.ne_zero_iff hlt)
  cases mode with
  | rne => exact (roundInt_nearest_eq_succ_iff hodd neg (.inl rfl)).trans (h.middle_le_iff hlt)
  | rmm => exact (roundInt_nearest_eq_succ_iff hodd neg (.inr rfl)).trans (h.middle_le_iff hlt)
  | rtz => exact hnever
  | rdn =>
    rw [roundInt_rdn]
    cases neg
    · exact hnever
    · exact haway
  | rup =>
    rw [roundInt_rup]
    cases neg
    · exact haway
    · exact hnever

end Neighbours

section Power
variable {n p : Nat} {fr : Frac} {k j : Int} {x : ℝ}

theorem le_roundInt (n : Nat) (fr : Frac) (neg : Bool) (mode : Mode) : n ≤ roundInt n fr neg mode := by
  have := roundInt_eq_or n fr neg mode
  omega

theorem roundInt_le (n : Nat) (fr : Frac) (neg : Bool) (mode : Mode) : roundInt n fr neg mode ≤ n + 1 := by
  have := roundInt_eq_or n fr neg mode
  omega

theorem two_zpow_le_natCast_mul (hn : 2 ^ p ≤ n) (hj : j ≤ k + p) : (2 : ℝ) ^ j ≤ n * 2 ^ k := by
  by_contra hlt
  exact hn.not_gt ((natCast_lt_two_zpow n p k).1 ((not_le.1 hlt).trans_le (two_zpow_le_iff_lt.2 hj)))

/-- The last p-bit value before 2^j. -/
theorem two_pow_sub_one_mul (p : Nat) (k : Int) :
    ((2 : ℝ) ^ p - 1) * 2 ^ k = 2 ^ (k + p) - 2 ^ (k + p - p) := by
  rw [sub_mul, one_mul, add_sub_cancel_right, zpow_add₀ two_ne_zero, zpow_natCast, mul_comm]

/-- Short of the last p-bit value before 2^j the upper neighbour is at most that value. -/
theorem succ_mul_le_pred (hn : n < 2 ^ p) (hp : 0 < p) (hjk : k + p ≤ j) (hne : ¬ (j = k + p ∧ n + 1 = 2 ^ p)) :
    ((n : ℝ) + 1) * 2 ^ k ≤ 2 ^ j - 2 ^ (j - p) := by
  have hu : (0 : ℝ) < 2 ^ k := zpow_pos two_pos k
  rcases hjk.eq_or_lt with rfl | hlt
  · have hle : (n : ℝ) + 1 ≤ 2 ^ p - 1 := by
      rw [le_sub_iff_add_le]
      exact_mod_cast (by omega : n + 1 + 1 ≤ 2 ^ p)
    rw [← two_pow_sub_one_mul]
    exact mul_le_mul_of_nonneg_right hle hu.le
  · have hle : (n : ℝ) + 1 ≤ 2 ^ p := by exact_mod_cast hn
    have hdouble : (2 : ℝ) ^ j = 2 * 2 ^ (j - 1) := by
      rw [← zpow_one_add₀ two_ne_zero, add_sub_cancel]
    have hlast : (2 : ℝ) ^ (j - p) ≤ 2 ^ (j - 1) := two_zpow_le_iff_lt.2 (by omega)
    have htop : (2 : ℝ) ^ p * 2 ^ k ≤ 2 ^ (j - 1) := by
      rw [← zpow_natCast, ← zpow_add₀ two_ne_zero]
      exact two_zpow_le_iff_lt.2 (by omega)
    have hmul := mul_le_mul_of_nonneg_right hle hu.le
    linarith

/-- A significand of p bits is rounded to 2^j or beyond exactly where the magnitude reaches 2^j from the p-bit value
before it. -/
theorem two_zpow_le_roundInt_iff (hx : Between fr (n * (2 : ℝ) ^ k) ((n + 1) * (2 : ℝ) ^ k) x) (hn : n < 2 ^ p)
    (hp : 0 < p) (hnorm : j < k + p → 2 ^ (p - 1) ≤ n) (neg : Bool) (mode : Mode) :
    (2 : ℝ) ^ j ≤ roundInt n fr neg mode * 2 ^ k ↔ Reaches neg mode (2 ^ j - 2 ^ (j - p)) (2 ^ j) x := by
  have hu : (0 : ℝ) < 2 ^ k := zpow_pos two_pos k
  obtain ⟨hlo, hhi⟩ := hx.mem_Ico (natCast_mul_lt hu)
  have hpred : (2 : ℝ) ^ j - 2 ^ (j - p) < 2 ^ j := sub_lt_self _ (zpow_pos two_pos _)
  rcases lt_or_ge j (k + p) with hjk | hjk
  · -- n·2^k is 2^j or beyond
    have htop : (2 : ℝ) ^ j ≤ n * 2 ^ k := two_zpow_le_natCast_mul (hnorm hjk) (by omega)
    refine iff_of_true (htop.trans (mul_le_mul_of_nonneg_right ?_ hu.le)) (reaches_of_le hpred (htop.trans hlo))
    exact_mod_cast le_roundInt n fr neg mode
  · by_cases hlast : j = k + p ∧ n + 1 = 2 ^ p
    · -- n·2^k is the last value before 2^j
      obtain ⟨rfl, hsucc⟩ := hlast
      have hodd : n % 2 = 1 := by
        have heven : 2 ∣ 2 ^ p := dvd_pow_self 2 hp.ne'
        omega
      have hcast : (n : ℝ) + 1 = 2 ^ p := by exact_mod_cast hsucc
      have htop : ((n : ℝ) + 1) * 2 ^ k = 2 ^ (k + p) := by
        rw [hcast, zpow_add₀ two_ne_zero, zpow_natCast, mul_comm]
      have hbefore : (n : ℝ) * 2 ^ k = 2 ^ (k + p) - 2 ^ (k + p - p) := by
        rw [← two_pow_sub_one_mul, ← hcast, add_sub_cancel_right]
      rw [← hbefore, ← htop, ← roundInt_eq_succ_iff hx (natCast_mul_lt hu) hodd neg mode, mul_le_mul_iff_left₀ hu]
      have hle := roundInt_le n fr neg mode
      norm_cast
      omega
    · -- the upper neighbour stays below 2^j
      have hbelow := succ_mul_le_pred hn hp hjk hlast
      refine iff_of_false (fun hge => ?_) (not_reaches_of_lt hpred (hhi.trans_le hbelow))
      have hle : (roundInt n fr neg mode : ℝ) * 2 ^ k ≤ (n + 1) * 2 ^ k :=
        mul_le_mul_of_nonneg_right (by exact_mod_cast roundInt_le n fr neg mode) hu.le
      linarith

end Power

/-! ### Overflow and tininess are such reaches -/

/-- A value below 2^j on the doubled scale of p bits. -/
theorem two_sub_zpow_mul (j m : Int) : ((2 : ℝ) - 2 ^ m) * 2 ^ j = 2 ^ (j + 1) - 2 ^ (j + m) := by
  rw [sub_mul, ← zpow_one_add₀ two_ne_zero, ← zpow_add₀ two_ne_zero, add_comm 1 j, add_comm m j]

theorem two_mul_two_zpow_sub_one (j : Int) : (2 : ℝ) * 2 ^ (j - 1) = 2 ^ j := by
  rw [← zpow_one_add₀ two_ne_zero, add_sub_cancel]

theorem prec_pos (F : Fmt) : 0 < F.prec := Nat.succ_pos _

theorem overflows_iff_reaches (F : Fmt) (neg : Bool) (mode : Mode) (x : ℝ) :
    overflows F neg mode x ↔ Reaches neg mode (2 ^ (F.emax + 1) - 2 ^ (F.emax + 1 - F.prec)) (2 ^ (F.emax + 1)) x := by
  have hmax : maxFReal F = 2 ^ (F.emax + 1) - 2 ^ (F.emax + 1 - F.prec) := by
    rw [maxFReal, two_sub_zpow_mul, ← add_sub_assoc]
  have hmid : (2 - 2 ^ (-(F.prec : Int))) * 2 ^ F.emax ≤ x ↔
      2 ^ (F.emax + 1) - 2 ^ (F.emax + 1 - F.prec) + 2 ^ (F.emax + 1) ≤ 2 * x := by
    have hhalf := two_mul_two_zpow_sub_one (F.emax + 1 - F.prec)
    have hexp : F.emax + 1 - F.prec - 1 = F.emax + -(F.prec : Int) := by ring
    rw [two_sub_zpow_mul]
    rw [hexp] at hhalf
    constructor <;> intro h <;> linarith
  cases mode with
  | rne | rmm => exact hmid
  | rtz => exact Iff.rfl
  | rdn | rup => rw [overflows, hmax]; rfl

theorem tinyAfterRounding_iff_not_reaches (F : Fmt) (neg : Bool) (mode : Mode) (x : ℝ) :
    tinyAfterRounding F neg mode x ↔ ¬ Reaches neg mode (2 ^ F.emin - 2 ^ (F.emin - F.prec)) (2 ^ F.emin) x := by
  have hmid : x < 2 ^ F.emin - 2 ^ (F.emin - F.prec - 1) ↔
      ¬ 2 ^ F.emin - 2 ^ (F.emin - F.prec) + 2 ^ F.emin ≤ 2 * x := by
    have hhalf := two_mul_two_zpow_sub_one (F.emin - F.prec)
    rw [not_le]
    constructor <;> intro h <;> linarith
  cases mode with
  | rne | rmm => exact hmid
  | rtz => exact not_le.symm
  | rdn => cases neg; exacts [not_le.symm, not_lt.symm]
  | rup => cases neg; exacts [not_lt.symm, not_le.symm]

/-! ### The two outcomes of `roundF` -/

/-- The rounded significand of a magnitude. -/
def roundedSig (F : Fmt) (neg : Bool) (a : Mag) (mode : Mode) : Nat :=
  roundInt (a.split (quantum F a)).1 (a.split (quantum F a)).2 neg mode

/-- The exact value is not a value of the grid. -/
def inexact (F : Fmt) (a : Mag) : Bool := decide ((a.split (quantum F a)).2 ≠ .zero)

/-- The magnitude rounded to p bits with an unbounded exponent stays below 2^emin. -/
def tiny (F : Fmt) (neg : Bool) (a : Mag) (mode : Mode) : Bool :=
  belowPow2 (roundInt (a.split (a.log2 - F.prec + 1)).1 (a.split (a.log2 - F.prec + 1)).2 neg mode) (a.log2 - F.prec + 1)
    F.emin

theorem roundF_eq (F : Fmt) (neg : Bool) (a : Mag) (mode : Mode) :
    roundF F neg a mode =
      if belowPow2 (roundedSig F neg a mode) (quantum F a) (F.emax + 1) then
        (encodeMag F neg (roundedSig F neg a mode) (quantum F a),
          FpFlag.ifTrue (inexact F a) FpFlag.nx ||| FpFlag.ifTrue (tiny F neg a mode && inexact F a) FpFlag.uf)
      else (overflowResult F neg mode, FpFlag.of ||| FpFlag.nx) := rfl

section RoundF
variable {F : Fmt} {neg : Bool} {a : Mag} {mode : Mode} (ha : a.positive)
include ha

theorem belowPow2_roundedSig_iff :
    belowPow2 (roundedSig F neg a mode) (quantum F a) (F.emax + 1) = true ↔ ¬ overflows F neg mode (magReal a) := by
  have hprec : (F.prec : Int) = F.fracBits + 1 := rfl
  have hemin := emin_eq_one_sub_bias F
  have hemax := emax_eq_bias F
  have hbias := bias_pos F
  rw [belowPow2_iff, ← not_le, overflows_iff_reaches]
  refine not_congr (two_zpow_le_roundInt_iff (a.between_split ha _) (split_quantum_lt F ha) (prec_pos F) ?_ neg mode)
  intro hlt
  exact a.two_pow_le_split ha (by rw [quantum] at *; simp only [Fmt.prec] at *; omega)

theorem tiny_iff : tiny F neg a mode = true ↔ tinyAfterRounding F neg mode (magReal a) := by
  rw [tiny, belowPow2_iff, ← not_le, tinyAfterRounding_iff_not_reaches]
  refine not_congr (two_zpow_le_roundInt_iff (a.between_split ha _) (a.split_lt ha ?_) (prec_pos F) ?_ neg mode)
  · omega
  · exact fun _ => a.two_pow_le_split ha (by simp only [Fmt.prec]; omega)

theorem roundF_of_overflows (h : overflows F neg mode (magReal a)) :
    roundF F neg a mode = (overflowResult F neg mode, FpFlag.of ||| FpFlag.nx) := by
  rw [roundF_eq, if_neg fun hbelow => (belowPow2_roundedSig_iff ha).1 hbelow h]

theorem roundF_of_not_overflows (h : ¬ overflows F neg mode (magReal a)) :
    roundF F neg a mode =
      (encodeMag F neg (roundedSig F neg a mode) (quantum F a),
        FpFlag.ifTrue (inexact F a) FpFlag.nx ||| FpFlag.ifTrue (tiny F neg a mode && inexact F a) FpFlag.uf) := by
  rw [roundF_eq, if_pos ((belowPow2_roundedSig_iff ha).2 h)]

theorem isWordOf_roundF (h : ¬ overflows F neg mode (magReal a)) :
    IsWordOf F neg (roundedSig F neg a mode) (quantum F a) (roundF F neg a mode).1 := by
  rw [roundF_of_not_overflows ha h]
  exact (isSignificand_roundInt F ha neg mode).isWordOf_encodeMag neg ((belowPow2_roundedSig_iff ha).2 h)

theorem rounds_roundF (h : ¬ overflows F neg mode (magReal a)) :
    Rounds F mode (signedMag neg a) (roundF F neg a mode).1 :=
  (isWordOf_roundF ha h).rounds (neg_scale_le_quantum F a) (quantum_eq_or_two_pow_le F ha) (a.between_split ha _)

theorem inexact_iff (h : ¬ overflows F neg mode (magReal a)) :
    inexact F a = true ↔ (valueQ F (roundF F neg a mode).1 : ℝ) ≠ signedMag neg a := by
  have hu : (0 : ℝ) < 2 ^ quantum F a := zpow_pos two_pos _
  rw [(isWordOf_roundF ha h).valueQ_eq (neg_scale_le_quantum F a), signedMag_eq, Ne, signedReal_inj, inexact,
    decide_eq_true_iff, roundedSig, not_iff_not, iff_comm]
  refine (a.between_split ha (quantum F a)).eq_iff (natCast_mul_lt hu) ?_ fun hzero => ?_
  · refine (roundInt_eq_or (a.split (quantum F a)).1 (a.split (quantum F a)).2 neg mode).imp (fun hr => ?_) fun hr => ?_
    · rw [hr]
    · rw [hr, Nat.cast_succ]
  · rw [hzero, roundInt_zero]

end RoundF

end Sys2Proof.Machine

namespace Sys2Proof.Machine

/-! ### The flags of a rounding (42_fp_numerics.md rules R153 to R155) -/

/-- The flags of a rounding short of overflow. -/
def roundingFlags (inexact tiny : Bool) : FpFlags :=
  FpFlag.ifTrue inexact FpFlag.nx ||| FpFlag.ifTrue (tiny && inexact) FpFlag.uf

section Flags
variable (i t : Bool)

theorem hasFlag_nx_roundingFlags : hasFlag (roundingFlags i t) FpFlag.nx ↔ i = true := by
  revert i t
  unfold hasFlag
  decide

theorem hasFlag_uf_roundingFlags : hasFlag (roundingFlags i t) FpFlag.uf ↔ i = true ∧ t = true := by
  revert i t
  unfold hasFlag
  decide

theorem not_hasFlag_nv_roundingFlags : ¬ hasFlag (roundingFlags i t) FpFlag.nv := by
  revert i t
  unfold hasFlag
  decide

theorem not_hasFlag_dz_roundingFlags : ¬ hasFlag (roundingFlags i t) FpFlag.dz := by
  revert i t
  unfold hasFlag
  decide

theorem not_hasFlag_of_roundingFlags : ¬ hasFlag (roundingFlags i t) FpFlag.of := by
  revert i t
  unfold hasFlag
  decide

end Flags

theorem hasFlag_of_overflow : hasFlag (FpFlag.of ||| FpFlag.nx) FpFlag.of := rfl

theorem not_hasFlag_nv_overflow : ¬ hasFlag (FpFlag.of ||| FpFlag.nx) FpFlag.nv := by unfold hasFlag; decide

theorem not_hasFlag_dz_overflow : ¬ hasFlag (FpFlag.of ||| FpFlag.nx) FpFlag.dz := by unfold hasFlag; decide

theorem signOf_overflowResult (F : Fmt) (neg : Bool) (mode : Mode) : signOf F (overflowResult F neg mode) = neg := by
  cases F <;> cases neg <;> cases mode <;> rfl

theorem isNaN_overflowResult (F : Fmt) (neg : Bool) (mode : Mode) : isNaN F (overflowResult F neg mode) = false := by
  cases F <;> cases neg <;> cases mode <;> rfl

section RoundF
variable {F : Fmt} {neg : Bool} {a : Mag} {mode : Mode} (ha : a.positive)
include ha

theorem roundF_flags (h : ¬ overflows F neg mode (magReal a)) :
    (roundF F neg a mode).2 = roundingFlags (inexact F a) (tiny F neg a mode) := by
  rw [roundF_of_not_overflows ha h]
  rfl

theorem hasFlag_of_roundF_iff : hasFlag (roundF F neg a mode).2 FpFlag.of ↔ overflows F neg mode (magReal a) := by
  by_cases h : overflows F neg mode (magReal a)
  · rw [roundF_of_overflows ha h]
    exact iff_of_true hasFlag_of_overflow h
  · rw [roundF_flags ha h]
    exact iff_of_false (not_hasFlag_of_roundingFlags _ _) h

theorem signOf_roundF : signOf F (roundF F neg a mode).1 = neg := by
  by_cases h : overflows F neg mode (magReal a)
  · rw [roundF_of_overflows ha h]
    exact signOf_overflowResult F neg mode
  · exact (isWordOf_roundF ha h).sign

/-- A rounding gives a number. -/
theorem isNaN_roundF : isNaN F (roundF F neg a mode).1 = false := by
  by_cases h : overflows F neg mode (magReal a)
  · rw [roundF_of_overflows ha h]
    exact isNaN_overflowResult F neg mode
  · exact isNaN_of_isFinite (isWordOf_roundF ha h).finite

theorem not_hasFlag_nv_roundF : ¬ hasFlag (roundF F neg a mode).2 FpFlag.nv := by
  by_cases h : overflows F neg mode (magReal a)
  · rw [roundF_of_overflows ha h]
    exact not_hasFlag_nv_overflow
  · rw [roundF_flags ha h]
    exact not_hasFlag_nv_roundingFlags _ _

theorem not_hasFlag_dz_roundF : ¬ hasFlag (roundF F neg a mode).2 FpFlag.dz := by
  by_cases h : overflows F neg mode (magReal a)
  · rw [roundF_of_overflows ha h]
    exact not_hasFlag_dz_overflow
  · rw [roundF_flags ha h]
    exact not_hasFlag_dz_roundingFlags _ _

end RoundF

/-- Settles O40: the rounded significand is the neighbour on the format's grid that the mode names, and no word lies
between the neighbours. -/
theorem roundingIsCorrect : Obligations.RoundingIsCorrect := by
  intro F neg a mode ha
  refine ⟨signOf_roundF ha, fun hof => rounds_roundF ha ?_⟩
  rwa [hasFlag_of_roundF_iff ha] at hof

/-- Settles O41: a significand of p bits is rounded to 2^(emax+1) exactly where `overflows` says. -/
theorem overflowIsByTheTable : Obligations.OverflowIsByTheTable := by
  intro F neg a mode ha
  refine ⟨hasFlag_of_roundF_iff ha, fun h => ?_⟩
  rw [roundF_of_overflows ha h]
  refine ⟨rfl, ?_⟩
  cases mode <;> cases neg <;> rfl

/-- Settles O42: the fraction is zero exactly for a value of the grid, and the second rounding, with the exponent
unbounded, stays below 2^emin exactly where `tinyAfterRounding` says. -/
theorem underflowAndInexactFlags : Obligations.UnderflowAndInexactFlags := by
  intro F neg a mode ha h
  dsimp only
  rw [← inexact_iff ha h, ← tiny_iff ha, roundF_flags ha h]
  exact ⟨hasFlag_nx_roundingFlags _ _, hasFlag_uf_roundingFlags _ _, not_hasFlag_nv_roundingFlags _ _,
    not_hasFlag_dz_roundingFlags _ _, not_hasFlag_of_roundingFlags _ _⟩

end Sys2Proof.Machine

namespace Sys2Proof.Machine

/-! ### Values and units -/

section Values
variable {F : Fmt}

theorem valueQ_eq_div (F : Fmt) (x : BitVec F.width) : valueQ F x = valueOf F x / 2 ^ F.scale := by
  have hexp : F.emin - F.fracBits = -(F.scale : Int) := by rw [emin_eq_fracBits_sub_scale]; ring
  rw [valueQ_eq_valueOf_mul, hexp, zpow_neg, zpow_natCast, div_eq_mul_inv]

theorem valueQ_add_eq_div (F : Fmt) (a b : BitVec F.width) :
    valueQ F a + valueQ F b = (valueOf F a + valueOf F b : Int) / (2 ^ F.scale : ℕ) := by
  rw [valueQ_eq_div, valueQ_eq_div]
  push_cast
  ring

theorem valueQ_mul_eq_div (F : Fmt) (a b : BitVec F.width) :
    valueQ F a * valueQ F b = (valueOf F a * valueOf F b : Int) / (2 ^ (2 * F.scale) : ℕ) := by
  rw [valueQ_eq_div, valueQ_eq_div, two_mul, pow_add]
  push_cast
  ring

theorem valueQ_negate (F : Fmt) (a : BitVec F.width) : valueQ F (negate F a) = -valueQ F a := by
  rw [valueQ_eq_div, valueOf_negate, valueQ_eq_div, Int.cast_neg, neg_div]

theorem withSign_neg_iff {neg : Bool} {n : Nat} (hn : n ≠ 0) : withSign neg n < 0 ↔ neg = true := by
  cases neg <;> simp [withSign]
  omega

theorem withSign_eq_zero_iff {neg : Bool} {n : Nat} : withSign neg n = 0 ↔ n = 0 := by
  cases neg <;> simp [withSign]

theorem withSign_xor_mul (s t : Bool) (m n : Nat) : withSign (s ^^ t) (m * n) = withSign s m * withSign t n := by
  cases s <;> cases t <;> simp [withSign]

theorem withSign_xor (s t : Bool) (n : Nat) : withSign (s ^^ t) n = (if t then -1 else 1) * withSign s n := by
  cases s <;> cases t <;> simp [withSign]

theorem valueOf_eq_zero_iff {x : BitVec F.width} : valueOf F x = 0 ↔ isZero F x = true := by
  rw [valueOf, withSign_eq_zero_iff, isZero_iff_unitsOf_eq_zero]

theorem unitsOf_pos {x : BitVec F.width} (h : isZero F x = false) : 0 < unitsOf F x :=
  Nat.pos_of_ne_zero fun h0 => by simp [isZero_iff_unitsOf_eq_zero.2 h0] at h

theorem valueQ_eq_zero_iff {x : BitVec F.width} : valueQ F x = 0 ↔ isZero F x = true := by
  rw [valueQ_eq_div, div_eq_zero_iff, Int.cast_eq_zero, valueOf_eq_zero_iff, or_iff_left (by positivity)]

theorem signOf_eq_decide {x : BitVec F.width} (h : valueQ F x ≠ 0) : signOf F x = decide (valueQ F x < 0) := by
  have hunits : unitsOf F x ≠ 0 := fun h0 => h (valueQ_eq_zero_iff.2 (isZero_iff_unitsOf_eq_zero.2 h0))
  rw [Bool.eq_iff_iff, decide_eq_true_iff, valueQ_eq_div, div_lt_iff₀ (by positivity), zero_mul, Int.cast_lt_zero,
    valueOf, withSign_neg_iff hunits]

theorem abs_valueQ_eq_div (F : Fmt) (x : BitVec F.width) : |(valueQ F x : ℝ)| = unitsOf F x / (2 ^ F.scale : ℕ) := by
  rw [abs_valueQ_eq, zpow_neg, zpow_natCast, div_eq_mul_inv]
  push_cast
  rfl

end Values

/-! ### Rounding a ratio -/

theorem eq_zero_iff_of_eq_div {w : ℚ} {v : Int} {d : Nat} (hd : 0 < d) (hw : w = v / d) : w = 0 ↔ v = 0 := by
  rw [hw, div_eq_zero_iff, Int.cast_eq_zero, or_iff_left (by exact_mod_cast hd.ne')]

/-- `roundRatio` is one rounding of the ratio. -/
theorem exists_roundRatio (F : Fmt) (mode : Mode) {v : Int} {d : Nat} {w : ℚ} (hv : v ≠ 0) (hd : 0 < d) (hw : w = v / d) :
    ∃ m : Mag, m.positive ∧ magReal m = |w| ∧ roundRatio F v d mode = roundF F (decide (w < 0)) m mode := by
  have hd' : (0 : ℚ) < d := by exact_mod_cast hd
  refine ⟨.ratio v.natAbs d, ⟨Int.natAbs_pos.2 hv, hd⟩, ?_, ?_⟩
  · rw [hw, magReal, abs_div, abs_of_pos hd', Nat.cast_natAbs]
    push_cast
    rfl
  · have hsign : w < 0 ↔ v < 0 := by rw [hw, div_lt_iff₀ hd', zero_mul, Int.cast_lt_zero]
    rw [roundRatio, decide_eq_decide.2 hsign]

/-! ### The operations on finite words -/

theorem isSNaN_of_isFinite {F : Fmt} {x : BitVec F.width} (h : isFinite F x = true) : isSNaN F x = false :=
  isSNaN_of_not_isNaN (isNaN_of_isFinite h)

section Finite
variable {F : Fmt} {a b c : BitVec F.width} (mode : Mode) (ha : isFinite F a = true)

section Sqrt
include ha

theorem fpSqrt_of_isFinite (hz : isZero F a = false) (hs : signOf F a = false) :
    fpSqrt F a mode = roundF F false (.root (unitsOf F a) (2 ^ F.scale)) mode := by
  simp [fpSqrt, isNaN_of_isFinite ha, isSNaN_of_isFinite ha, isInf_of_isFinite ha, hz, hs]

end Sqrt

variable (hb : isFinite F b = true)
include ha hb

theorem fpAdd_of_isFinite :
    fpAdd F a b mode =
      if valueOf F a + valueOf F b = 0 then
        if isZero F a && isZero F b && (signOf F a == signOf F b) then exact F a else cancelledZero F mode
      else roundRatio F (valueOf F a + valueOf F b) (2 ^ F.scale) mode := by
  simp [fpAdd, isNaN_of_isFinite ha, isSNaN_of_isFinite ha, isInf_of_isFinite ha, isNaN_of_isFinite hb,
    isSNaN_of_isFinite hb, isInf_of_isFinite hb]

theorem fpMul_of_isFinite :
    fpMul F a b mode =
      if valueOf F a * valueOf F b = 0 then exact F (signedZero F (signOf F a ^^ signOf F b))
      else roundRatio F (valueOf F a * valueOf F b) (2 ^ (2 * F.scale)) mode := by
  simp [fpMul, isNaN_of_isFinite ha, isSNaN_of_isFinite ha, isInf_of_isFinite ha, isNaN_of_isFinite hb,
    isSNaN_of_isFinite hb, isInf_of_isFinite hb]

theorem fpDiv_of_isFinite (hz : isZero F b = false) :
    fpDiv F a b mode =
      if isZero F a then exact F (signedZero F (signOf F a ^^ signOf F b))
      else roundF F (signOf F a ^^ signOf F b) (.ratio (unitsOf F a) (unitsOf F b)) mode := by
  simp [fpDiv, isNaN_of_isFinite ha, isSNaN_of_isFinite ha, isInf_of_isFinite ha, isNaN_of_isFinite hb,
    isSNaN_of_isFinite hb, isInf_of_isFinite hb, hz]

theorem fpFma_of_isFinite (hc : isFinite F c = true) (np nc : Bool) :
    fpFma F a b c np nc mode =
      if withSign (signOf F a ^^ signOf F b ^^ np) (unitsOf F a * unitsOf F b) +
          withSign (signOf F c ^^ nc) (unitsOf F c * 2 ^ F.scale) = 0 then
        if (withSign (signOf F a ^^ signOf F b ^^ np) (unitsOf F a * unitsOf F b) == 0) && isZero F c &&
            ((signOf F a ^^ signOf F b ^^ np) == (signOf F c ^^ nc)) then
          exact F (signedZero F (signOf F a ^^ signOf F b ^^ np))
        else cancelledZero F mode
      else
        roundRatio F (withSign (signOf F a ^^ signOf F b ^^ np) (unitsOf F a * unitsOf F b) +
          withSign (signOf F c ^^ nc) (unitsOf F c * 2 ^ F.scale)) (2 ^ (2 * F.scale)) mode := by
  simp [fpFma, isNaN_of_isFinite ha, isSNaN_of_isFinite ha, isInf_of_isFinite ha, isNaN_of_isFinite hb,
    isSNaN_of_isFinite hb, isInf_of_isFinite hb, isNaN_of_isFinite hc, isSNaN_of_isFinite hc, isInf_of_isFinite hc]

end Finite

/-! ### The exact results (43_fp_arith.md rules R180 to R184) -/

section Exact
variable {F : Fmt} {a b c : BitVec F.width} (mode : Mode) (ha : isFinite F a = true) (hb : isFinite F b = true)
include ha hb

theorem fpAdd_rounds (h : valueQ F a + valueQ F b ≠ 0) :
    ∃ m : Mag, m.positive ∧ magReal m = |(valueQ F a + valueQ F b : ℚ)| ∧
      fpAdd F a b mode = roundF F (decide (valueQ F a + valueQ F b < 0)) m mode := by
  have hw := valueQ_add_eq_div F a b
  have hv : valueOf F a + valueOf F b ≠ 0 := mt (eq_zero_iff_of_eq_div (Nat.two_pow_pos _) hw).2 h
  rw [fpAdd_of_isFinite mode ha hb, if_neg hv]
  exact exists_roundRatio F mode hv (Nat.two_pow_pos _) hw

theorem fpMul_rounds (h : valueQ F a * valueQ F b ≠ 0) :
    ∃ m : Mag, m.positive ∧ magReal m = |(valueQ F a * valueQ F b : ℚ)| ∧
      fpMul F a b mode = roundF F (decide (valueQ F a * valueQ F b < 0)) m mode := by
  have hw := valueQ_mul_eq_div F a b
  have hv : valueOf F a * valueOf F b ≠ 0 := mt (eq_zero_iff_of_eq_div (Nat.two_pow_pos _) hw).2 h
  rw [fpMul_of_isFinite mode ha hb, if_neg hv]
  exact exists_roundRatio F mode hv (Nat.two_pow_pos _) hw

theorem fpDiv_rounds (hza : valueQ F a ≠ 0) (hzb : valueQ F b ≠ 0) :
    ∃ m : Mag, m.positive ∧ magReal m = |(valueQ F a / valueQ F b : ℚ)| ∧
      fpDiv F a b mode = roundF F (decide (valueQ F a / valueQ F b < 0)) m mode := by
  have hzero {x : BitVec F.width} (h : valueQ F x ≠ 0) : isZero F x = false :=
    eq_false_of_ne_true (mt valueQ_eq_zero_iff.2 h)
  refine ⟨.ratio (unitsOf F a) (unitsOf F b), ⟨unitsOf_pos (hzero hza), unitsOf_pos (hzero hzb)⟩, ?_, ?_⟩
  · rw [abs_div, Rat.cast_div, Rat.cast_abs, Rat.cast_abs, abs_valueQ_eq_div, abs_valueQ_eq_div, magReal,
      div_div_div_cancel_right₀ (by positivity)]
  · have hsign : decide (valueQ F a / valueQ F b < 0) = (signOf F a ^^ signOf F b) := by
      rw [signOf_eq_decide hza, signOf_eq_decide hzb]
      rcases hza.lt_or_gt with hna | hna <;> rcases hzb.lt_or_gt with hnb | hnb <;>
        simp [div_neg_iff, hna, hnb, hna.not_gt, hnb.not_gt]
    rw [fpDiv_of_isFinite mode ha hb (hzero hzb), hzero hza, hsign]
    rfl

omit hb in
theorem fpSqrt_rounds (h : 0 < valueQ F a) :
    ∃ m : Mag, m.positive ∧ magReal m = Real.sqrt (valueQ F a : ℝ) ∧ fpSqrt F a mode = roundF F false m mode := by
  have hzero : isZero F a = false := eq_false_of_ne_true (mt valueQ_eq_zero_iff.2 h.ne')
  have hsign : signOf F a = false := by rw [signOf_eq_decide h.ne', decide_eq_false h.not_gt]
  refine ⟨.root (unitsOf F a) (2 ^ F.scale), ⟨unitsOf_pos hzero, Nat.two_pow_pos _⟩, ?_,
    fpSqrt_of_isFinite mode ha hzero hsign⟩
  rw [magReal, ← abs_valueQ_eq_div, abs_of_pos (by exact_mod_cast h)]

end Exact

section Fused
variable {F : Fmt} {a b c : BitVec F.width} {np nc : Bool} {v : ℚ}
  (hv : v = (if np then -1 else 1) * (valueQ F a * valueQ F b) + (if nc then -1 else 1) * valueQ F c)
include hv

/-- The exact product-sum, as integers in units of 2^(−2·scale). -/
theorem fused_eq_div :
    v = (withSign (signOf F a ^^ signOf F b ^^ np) (unitsOf F a * unitsOf F b) +
      withSign (signOf F c ^^ nc) (unitsOf F c * 2 ^ F.scale) : Int) / (2 ^ (2 * F.scale) : ℕ) := by
  have hproduct : withSign (signOf F a ^^ signOf F b ^^ np) (unitsOf F a * unitsOf F b) =
      (if np then -1 else 1) * (valueOf F a * valueOf F b) := by
    rw [withSign_xor, withSign_xor_mul]
    rfl
  have haddend : withSign (signOf F c ^^ nc) (unitsOf F c * 2 ^ F.scale) =
      (if nc then -1 else 1) * (valueOf F c * 2 ^ F.scale) := by
    rw [withSign_xor, valueOf]
    cases signOf F c <;> simp [withSign]
  have hpow : ((2 : ℚ) ^ F.scale) ≠ 0 := by positivity
  rw [hproduct, haddend, hv, valueQ_eq_div, valueQ_eq_div, valueQ_eq_div, two_mul, pow_add]
  push_cast
  field_simp

theorem fpFma_rounds (mode : Mode) (ha : isFinite F a = true) (hb : isFinite F b = true) (hc : isFinite F c = true)
    (h : v ≠ 0) :
    ∃ m : Mag, m.positive ∧ magReal m = |v| ∧ fpFma F a b c np nc mode = roundF F (decide (v < 0)) m mode := by
  have hw := fused_eq_div hv
  have hsum := mt (eq_zero_iff_of_eq_div (Nat.two_pow_pos _) hw).2 h
  rw [fpFma_of_isFinite mode ha hb hc, if_neg hsum]
  exact exists_roundRatio F mode hsum (Nat.two_pow_pos _) hw

end Fused

/-- Settles O43: each operation rounds the ratio, or the root, of integers that is the exact result. -/
theorem arithmeticRoundsTheExactResult : Obligations.ArithmeticRoundsTheExactResult := by
  intro F a b mode ha hb
  refine ⟨fpAdd_rounds mode ha hb, fun h => ?_, fpMul_rounds mode ha hb, fpDiv_rounds mode ha hb,
    fpSqrt_rounds mode ha⟩
  have hneg : valueQ F a - valueQ F b = valueQ F a + valueQ F (negate F b) := by rw [valueQ_negate, sub_eq_add_neg]
  rw [hneg] at h ⊢
  exact fpAdd_rounds mode ha ((isFinite_negate F b).trans hb) h

/-- Settles O44: the product and the addend are integers in one unit, and their sum is rounded once. -/
theorem fusedMultiplyAddRoundsOnce : Obligations.FusedMultiplyAddRoundsOnce := by
  intro F a b c np nc mode ha hb hc v hv
  exact fpFma_rounds rfl mode ha hb hc hv

end Sys2Proof.Machine

namespace Sys2Proof.Machine

/-! ### Conversions to a format (44_fp_convert.md rules R211, R212) -/

theorem intToFp_rounds (F : Fmt) {n : Int} (mode : Mode) (hn : n ≠ 0) :
    ∃ m : Mag, m.positive ∧ magReal m = |(n : ℝ)| ∧ intToFp F n mode = roundF F (decide (n < 0)) m mode := by
  refine ⟨.ratio n.natAbs 1, ⟨Int.natAbs_pos.2 hn, one_pos⟩, ?_, if_neg hn⟩
  rw [magReal, Nat.cast_one, div_one, Nat.cast_natAbs, Int.cast_abs]

section FpToFp
variable {Fs : Fmt} (Fd : Fmt) {a : BitVec Fs.width} (mode : Mode)

theorem fpToFp_of_isZero (h : isZero Fs a = true) : fpToFp Fs Fd a mode = (signedZero Fd (signOf Fs a), 0) := by
  have hfin := isFinite_of_isZero h
  simp [fpToFp, isSNaN_of_isFinite hfin, isNaN_of_isFinite hfin, isInf_of_isFinite hfin, h, exact, FpFlag.none]

theorem fpToFp_of_isInf (h : isInf Fs a = true) : fpToFp Fs Fd a mode = (infinity Fd (signOf Fs a), 0) := by
  have hnan := isNaN_of_isInf h
  simp [fpToFp, isSNaN_of_not_isNaN hnan, hnan, h, exact, FpFlag.none]

theorem fpToFp_of_isFinite (hfin : isFinite Fs a = true) (h : isZero Fs a = false) :
    fpToFp Fs Fd a mode = roundF Fd (signOf Fs a) (.ratio (unitsOf Fs a) (2 ^ Fs.scale)) mode := by
  simp [fpToFp, isSNaN_of_isFinite hfin, isNaN_of_isFinite hfin, isInf_of_isFinite hfin, h]

theorem fpToFp_rounds (hfin : isFinite Fs a = true) (h : valueQ Fs a ≠ 0) :
    ∃ m : Mag, m.positive ∧ magReal m = |(valueQ Fs a : ℝ)| ∧ fpToFp Fs Fd a mode = roundF Fd (signOf Fs a) m mode := by
  have hzero : isZero Fs a = false := eq_false_of_ne_true (mt valueQ_eq_zero_iff.2 h)
  exact ⟨.ratio (unitsOf Fs a) (2 ^ Fs.scale), ⟨unitsOf_pos hzero, Nat.two_pow_pos _⟩, (abs_valueQ_eq_div Fs a).symm,
    fpToFp_of_isFinite Fd mode hfin hzero⟩

end FpToFp

/-! ### A value of the grid is rounded to itself -/

theorem Mag.log2_lt {a : Mag} (ha : a.positive) {k : Int} (h : magReal a < 2 ^ k) : a.log2 < k := by
  by_contra hk
  exact ((two_zpow_le_iff_lt.2 (not_lt.1 hk)).trans (a.log2_spec ha).1).not_gt h

/-- No integer multiple of the quantum stands strictly between two neighbours. -/
theorem inexact_eq_false {F : Fmt} {a : Mag} (ha : a.positive) {m : Nat} {k : Int} (h : magReal a = m * 2 ^ k)
    (hk : quantum F a ≤ k) : inexact F a = false := by
  have hu : (0 : ℝ) < 2 ^ quantum F a := zpow_pos two_pos _
  obtain ⟨j, rfl⟩ : ∃ j : ℕ, k = j + quantum F a := ⟨(k - quantum F a).toNat, by omega⟩
  have hmultiple : magReal a = (m * 2 ^ j : ℕ) * 2 ^ quantum F a := by
    rw [h, zpow_add₀ two_ne_zero, zpow_natCast, ← mul_assoc]
    push_cast
    rfl
  have hx := a.between_split ha (quantum F a)
  have hhi := (hx.mem_Ico (natCast_mul_lt hu)).2
  by_contra hinexact
  have hlo := hx.pos_of_ne_zero (natCast_mul_lt hu) (by simpa [inexact] using hinexact)
  rw [hmultiple, mul_lt_mul_iff_left₀ hu] at hlo hhi
  norm_cast at hlo hhi
  omega

/-- Below the binade of the greatest finite magnitude nothing overflows. -/
theorem not_overflows_of_lt {F : Fmt} {neg : Bool} {mode : Mode} {x : ℝ} (h : x < 2 ^ F.emax) :
    ¬ overflows F neg mode x := by
  have hdouble := two_mul_two_zpow_sub_one (F.emax + 1)
  have hlast : (2 : ℝ) ^ (F.emax + 1 - F.prec) ≤ 2 ^ F.emax :=
    two_zpow_le_iff_lt.2 (by have := prec_pos F; omega)
  rw [add_sub_cancel_right] at hdouble
  rw [overflows_iff_reaches]
  exact not_reaches_of_lt (sub_lt_self _ (zpow_pos two_pos _)) (by linarith)

theorem roundF_of_grid {F : Fmt} {neg : Bool} {mode : Mode} {a : Mag} (ha : a.positive) {m : Nat} {k : Int}
    (h : magReal a = m * 2 ^ k) (hk : quantum F a ≤ k) (hmax : magReal a < 2 ^ F.emax) :
    (valueQ F (roundF F neg a mode).1 : ℝ) = signedMag neg a ∧ (roundF F neg a mode).2 = 0 := by
  have hover : ¬ overflows F neg mode (magReal a) := not_overflows_of_lt hmax
  have hexact := inexact_eq_false ha h hk
  refine ⟨?_, ?_⟩
  · by_contra hne
    simp [(inexact_iff ha hover).2 hne] at hexact
  · rw [roundF_flags ha hover, hexact]
    cases tiny F neg a mode <;> rfl

/-! ### Single to double -/

/-- The magnitude of a finite word is a significand of p bits at some quantum of its format. -/
theorem exists_abs_valueQ_eq {F : Fmt} {x : BitVec F.width} (h : isFinite F x = true) :
    ∃ (m : Nat) (k : Int), m < 2 ^ F.prec ∧ -(F.scale : Int) ≤ k ∧ k + F.prec ≤ F.emax + 1 ∧
      |(valueQ F x : ℝ)| = m * 2 ^ k := by
  have hexp := lt_of_le_of_ne (Nat.le_sub_one_of_lt (expOf_lt F x)) (isFinite_iff.1 h)
  have hones := expOnes_eq F
  have hemin := emin_eq_fracBits_sub_scale F
  have hemin' := emin_eq_one_sub_bias F
  have hemax := emax_eq_bias F
  have hbias := bias_pos F
  have hfrac := fracOf_lt F x
  have hpow := two_pow_prec F
  have hprec : (F.prec : Int) = F.fracBits + 1 := rfl
  rw [abs_valueQ_eq]
  rcases Nat.eq_zero_or_pos (expOf F x) with hzero | hpos
  · refine ⟨fracOf F x, -F.scale, by omega, le_rfl, by omega, ?_⟩
    rw [unitsOf_of_expOf_eq_zero hzero]
  · refine ⟨2 ^ F.fracBits + fracOf F x, (expOf F x - 1 : ℕ) + -(F.scale : Int), by omega, by omega, ?_, ?_⟩
    · change expOf F x < F.expOnes at hexp
      omega
    · rw [unitsOf_of_expOf_ne_zero hpos.ne', zpow_add₀ two_ne_zero, zpow_natCast, ← mul_assoc]
      push_cast
      rfl

theorem fpToFp_S_D_exact {a : BitVec 32} (mode : Mode) (h : isFinite .S a = true) :
    valueQ .D (fpToFp .S .D a mode).1 = valueQ .S a ∧ (fpToFp .S .D a mode).2 = 0 := by
  by_cases hzero : valueQ .S a = 0
  · rw [fpToFp_of_isZero .D mode (valueQ_eq_zero_iff.1 hzero), hzero]
    exact ⟨valueQ_eq_zero_iff.2 (isZero_signedZero _ _), rfl⟩
  · obtain ⟨mag, hmag, hval, hround⟩ := fpToFp_rounds .D mode h hzero
    obtain ⟨m, k, hm, hk, hmax, hgrid⟩ := exists_abs_valueQ_eq h
    rw [← hval] at hgrid
    have hbound : magReal mag < 2 ^ (k + (Fmt.S).prec : Int) := hgrid ▸ (natCast_lt_two_zpow m _ k).2 hm
    have hlog := Mag.log2_lt hmag hbound
    have hquantum : quantum .D mag ≤ k := by
      simp only [quantum, Fmt.emin, Fmt.prec, Fmt.fracBits, Fmt.scale] at *
      omega
    have hlt : magReal mag < 2 ^ (Fmt.D).emax :=
      hbound.trans_le (two_zpow_le_iff_lt.2 (by simp only [Fmt.emax] at *; omega))
    rw [hround]
    refine (roundF_of_grid hmag hgrid hquantum hlt).imp_left fun hvalue => ?_
    rw [signedMag_eq, hval, abs_valueQ_eq, ← valueQ_eq_signedReal] at hvalue
    exact_mod_cast hvalue

/-- Settles O45: the exact value is a ratio of integers, rounded once; a finite single stands on the grid of doubles. -/
theorem conversionsToFloatRoundOnce : Obligations.ConversionsToFloatRoundOnce := by
  refine ⟨fun F n mode hn => intToFp_rounds F mode hn, ?_, fun Fs Fd a mode => fpToFp_rounds Fd mode,
    fun Fs Fd a mode => ⟨fpToFp_of_isZero Fd mode, fpToFp_of_isInf Fd mode⟩, fun a mode => fpToFp_S_D_exact mode⟩
  intro F mode
  cases F <;> rfl

end Sys2Proof.Machine

namespace Sys2Proof.Machine

/-! ### The integer a rational rounds to (42_fp_numerics.md rule R152) -/

theorem roundedInt_zero (mode : Mode) : roundedInt mode 0 = 0 := by
  cases mode <;> norm_num [roundedInt]

section RoundedInt
variable {n : Nat} {fr : Frac} {x : ℚ} (h : Between fr (n : ℚ) (n + 1) x)
include h

theorem Between.floor_eq : ⌊x⌋ = n := by
  obtain ⟨hlo, hhi⟩ := h.mem_Ico (lt_add_one _)
  exact Int.floor_eq_iff.2 ⟨by exact_mod_cast hlo, by exact_mod_cast hhi⟩

theorem Between.ceil_eq : ⌈x⌉ = awayInt n fr := by
  unfold awayInt
  split_ifs with hfr
  · subst hfr
    obtain rfl : x = n := h
    exact Int.ceil_natCast n
  · have hlo := h.pos_of_ne_zero (lt_add_one _) hfr
    have hhi := (h.mem_Ico (lt_add_one _)).2
    rw [Int.ceil_eq_iff]
    push_cast
    exact ⟨by linarith, hhi.le⟩

theorem Between.floor_add_half_eq (neg : Bool) : ⌊x + 1 / 2⌋ = roundInt n fr neg .rmm := by
  obtain ⟨hlo, hhi⟩ := h.mem_Ico (lt_add_one _)
  rw [Int.floor_eq_iff]
  cases fr <;> simp only [Between, roundInt] at h ⊢ <;> push_cast <;> constructor <;> linarith

theorem Between.roundedInt_rne : roundedInt .rne x = roundInt n fr false .rne := by
  simp only [roundedInt, h.floor_eq]
  cases fr <;> simp only [Between] at h <;> push_cast
  case zero | low => exact if_pos (by linarith)
  case half =>
    rw [if_neg (by linarith), if_neg (by linarith)]
    simp only [roundInt]
    split_ifs <;> omega
  case high =>
    rw [if_neg (by linarith), if_pos (by linarith)]
    rfl

/-- For a negative value the floor is the opposite of the magnitude's ceiling, so the fraction is counted from above. -/
theorem Between.roundedInt_rne_neg : roundedInt .rne (-x) = -(roundInt n fr true .rne : Int) := by
  simp only [roundedInt, Int.floor_neg, h.ceil_eq]
  cases fr <;> simp only [Between] at h <;> simp only [awayInt, roundInt, if_true, reduceCtorEq, if_false] <;> push_cast
  case zero => exact if_pos (by linarith)
  case low =>
    rw [if_neg (by linarith), if_pos (by linarith)]
    ring
  case half =>
    rw [if_neg (by linarith), if_neg (by linarith)]
    split_ifs <;> omega
  case high => exact if_pos (by linarith)

theorem Between.nonneg : 0 ≤ x := (Nat.cast_nonneg n).trans (h.mem_Ico (lt_add_one _)).1

theorem Between.roundedInt_pos (mode : Mode) : roundedInt mode x = roundInt n fr false mode := by
  cases mode with
  | rne => exact h.roundedInt_rne
  | rmm => exact (if_pos h.nonneg).trans (h.floor_add_half_eq false)
  | rtz => exact (if_pos h.nonneg).trans h.floor_eq
  | rdn =>
    rw [roundInt_rdn]
    exact h.floor_eq
  | rup =>
    rw [roundInt_rup]
    exact h.ceil_eq

theorem Between.roundedInt_neg (hx : 0 < x) (mode : Mode) : roundedInt mode (-x) = -(roundInt n fr true mode : Int) := by
  have hneg : ¬ 0 ≤ -x := by linarith
  cases mode with
  | rne => exact h.roundedInt_rne_neg
  | rmm =>
    rw [← h.floor_add_half_eq, roundedInt, if_neg hneg, ← Int.ceil_neg, neg_add']
  | rtz => rw [roundedInt, if_neg hneg, Int.ceil_neg, h.floor_eq]; rfl
  | rdn => rw [roundedInt, Int.floor_neg, h.ceil_eq, roundInt_rdn]; rfl
  | rup => rw [roundedInt, Int.ceil_neg, h.floor_eq, roundInt_rup]; rfl

theorem Between.roundedInt_eq (neg : Bool) (mode : Mode) :
    roundedInt mode (if neg then -x else x) = withSign neg (roundInt n fr neg mode) := by
  cases neg with
  | false => exact h.roundedInt_pos mode
  | true =>
    rcases h.nonneg.eq_or_lt with rfl | hx
    · have hfr : fr = .zero := by
        by_contra hfr
        exact (Nat.cast_nonneg n).not_gt (Between.pos_of_ne_zero h (lt_add_one _) hfr)
      subst hfr
      have hn : n = 0 := by exact_mod_cast h.symm
      rw [if_pos rfl, neg_zero, roundedInt_zero, roundInt_zero, hn]
      rfl
    · exact h.roundedInt_neg hx mode

/-- The rounded integer is the value itself exactly where there is no fraction. -/
theorem Between.withSign_eq_iff (neg : Bool) (mode : Mode) :
    (withSign neg (roundInt n fr neg mode) : ℚ) = (if neg then -x else x) ↔ fr = .zero := by
  have hmagnitude : ((roundInt n fr neg mode : Nat) : ℚ) = x ↔ fr = .zero := by
    refine h.eq_iff (lt_add_one _) ?_ fun hzero => ?_
    · exact_mod_cast roundInt_eq_or n fr neg mode
    · rw [hzero, roundInt_zero]
  rw [← hmagnitude]
  cases neg <;> simp [withSign]

end RoundedInt

/-! ### Conversions to integers (44_fp_convert.md rule R210) -/

section FpToInt
variable {F : Fmt} (k : IntKind) {a : BitVec F.width} (mode : Mode)

theorem fpToInt_of_isNaN (h : isNaN F a = true) : fpToInt F k a mode = (intMax k, FpFlag.nv) := if_pos h

theorem fpToInt_of_isInf (h : isInf F a = true) :
    fpToInt F k a mode = (if signOf F a then intMin k else intMax k, FpFlag.nv) := by
  simp [fpToInt, isNaN_of_isInf h, h]

/-- The value of a word and its integer part. -/
theorem between_split_units (F : Fmt) (a : BitVec F.width) :
    Between (Mag.split (.ratio (unitsOf F a) (2 ^ F.scale)) 0).2
      ((Mag.split (.ratio (unitsOf F a) (2 ^ F.scale)) 0).1 : ℚ)
      ((Mag.split (.ratio (unitsOf F a) (2 ^ F.scale)) 0).1 + 1) ((unitsOf F a : ℚ) / (2 ^ F.scale : ℕ)) := by
  have hscale : scaleRatio (unitsOf F a) (2 ^ F.scale) 0 = (unitsOf F a, 2 ^ F.scale) := by simp [scaleRatio]
  have h := between_div (K := ℚ) (unitsOf F a) (Nat.two_pow_pos F.scale)
  simpa only [Mag.split, hscale] using h

theorem valueQ_eq_signed (F : Fmt) (a : BitVec F.width) :
    valueQ F a = if signOf F a then -((unitsOf F a : ℚ) / (2 ^ F.scale : ℕ)) else (unitsOf F a : ℚ) / (2 ^ F.scale : ℕ) := by
  rw [valueQ_eq_div, valueOf]
  cases signOf F a <;> simp [withSign, neg_div]

/-- A finite word: the rounded integer, clamped. -/
theorem fpToInt_of_isFinite (h : isFinite F a = true) :
    fpToInt F k a mode =
      if roundedInt mode (valueQ F a) < intMin k then (intMin k, FpFlag.nv)
      else if intMax k < roundedInt mode (valueQ F a) then (intMax k, FpFlag.nv)
      else (roundedInt mode (valueQ F a), if (roundedInt mode (valueQ F a) : ℚ) = valueQ F a then 0 else FpFlag.nx) := by
  have hx := between_split_units F a
  have hround := hx.roundedInt_eq (signOf F a) mode
  have hexact := hx.withSign_eq_iff (signOf F a) mode
  rw [← valueQ_eq_signed] at hround hexact
  have hflag (fr : Frac) : FpFlag.ifTrue (decide (fr ≠ .zero)) FpFlag.nx = if fr = .zero then 0 else FpFlag.nx := by
    cases fr <;> rfl
  simp only [hround, hexact, ← hflag]
  simp only [fpToInt, isNaN_of_isFinite h, isInf_of_isFinite h, Bool.false_eq_true, if_false]

end FpToInt

/-- Settles O46: the value split into its integer part and its fraction is rounded as the modes say, then clamped. -/
theorem floatToIntegerRoundsThenClamps : Obligations.FloatToIntegerRoundsThenClamps := by
  intro F k a mode n lo hi
  have hlo : lo = intMin k := by cases k <;> rfl
  have hhi : hi = intMax k := by cases k <;> rfl
  rw [hlo, hhi]
  refine ⟨fpToInt_of_isNaN k mode, fpToInt_of_isInf k mode, fun hfin hlt => ?_, fun hfin hlt => ?_,
    fun hfin hge hle => ?_⟩
  · rw [fpToInt_of_isFinite k mode hfin, if_pos hlt]
  · have hmin : intMin k ≤ intMax k := by cases k <;> decide
    rw [fpToInt_of_isFinite k mode hfin, if_neg (hmin.trans hlt.le).not_gt, if_pos hlt]
  · rw [fpToInt_of_isFinite k mode hfin, if_neg hge.not_gt, if_neg hle.not_gt]

end Sys2Proof.Machine

namespace Sys2Proof.Machine

/-! ### Exactly zero results (42_fp_numerics.md rule R156) -/

theorem exact_eq {F : Fmt} (x : BitVec F.width) : exact F x = (x, 0) := rfl

section ExactZero
variable {F : Fmt} {a b c : BitVec F.width} (mode : Mode) (ha : isFinite F a = true) (hb : isFinite F b = true)

theorem fpSqrt_of_isZero (h : isZero F a = true) : fpSqrt F a mode = (a, 0) := by
  have hfin := isFinite_of_isZero h
  simp [fpSqrt, isSNaN_of_isFinite hfin, isNaN_of_isFinite hfin, h, exact_eq]

include ha hb

theorem fpMul_of_zero (h : valueQ F a * valueQ F b = 0) :
    fpMul F a b mode = (signedZero F (signOf F a ^^ signOf F b), 0) := by
  rw [fpMul_of_isFinite mode ha hb, if_pos ((eq_zero_iff_of_eq_div (Nat.two_pow_pos _) (valueQ_mul_eq_div F a b)).1 h)]
  rfl

theorem fpDiv_of_zero (hza : valueQ F a = 0) (hzb : valueQ F b ≠ 0) :
    fpDiv F a b mode = (signedZero F (signOf F a ^^ signOf F b), 0) := by
  rw [fpDiv_of_isFinite mode ha hb (eq_false_of_ne_true (mt valueQ_eq_zero_iff.2 hzb)),
    if_pos (valueQ_eq_zero_iff.1 hza)]
  rfl

/-- A sum that is exactly zero: two zeros of one sign keep it, opposite values cancel. -/
theorem fpAdd_of_zero (h : valueQ F a + valueQ F b = 0) :
    fpAdd F a b mode =
      (signedZero F (if isZero F a = true ∧ signOf F a = signOf F b then signOf F a else decide (mode = .rdn)), 0) := by
  have hzero : isZero F a = true → isZero F b = true := fun hza =>
    valueQ_eq_zero_iff.1 (by rwa [valueQ_eq_zero_iff.2 hza, zero_add] at h)
  have hcond : (isZero F a && isZero F b && (signOf F a == signOf F b)) = true ↔
      isZero F a = true ∧ signOf F a = signOf F b := by
    rw [Bool.and_eq_true, Bool.and_eq_true, beq_iff_eq]
    exact ⟨fun ⟨⟨hza, _⟩, hs⟩ => ⟨hza, hs⟩, fun ⟨hza, hs⟩ => ⟨⟨hza, hzero hza⟩, hs⟩⟩
  rw [fpAdd_of_isFinite mode ha hb, if_pos ((eq_zero_iff_of_eq_div (Nat.two_pow_pos _) (valueQ_add_eq_div F a b)).1 h)]
  simp only [hcond]
  split_ifs with hsame
  · rw [← eq_signedZero hsame.1]
    rfl
  · rfl

theorem fpSub_of_zero (h : valueQ F a - valueQ F b = 0) :
    fpSub F a b mode =
      (signedZero F (if isZero F a = true ∧ signOf F a ≠ signOf F b then signOf F a else decide (mode = .rdn)), 0) := by
  have hsum : valueQ F a + valueQ F (negate F b) = 0 := by rwa [valueQ_negate, ← sub_eq_add_neg]
  rw [fpSub, fpAdd_of_zero mode ha ((isFinite_negate F b).trans hb) hsum, signOf_negate]
  simp only [Bool.eq_not]

end ExactZero

section FusedZero
variable {F : Fmt} {a b c : BitVec F.width} {np nc : Bool}

theorem product_eq_zero_iff :
    (withSign (signOf F a ^^ signOf F b ^^ np) (unitsOf F a * unitsOf F b) == 0) = true ↔
      (if np then -1 else 1) * (valueQ F a * valueQ F b) = 0 := by
  have hsign : (if np then -1 else 1 : ℚ) ≠ 0 := by cases np <;> norm_num
  rw [beq_iff_eq, withSign_eq_zero_iff, Nat.mul_eq_zero, mul_eq_zero_iff_left hsign, mul_eq_zero, valueQ_eq_zero_iff,
    valueQ_eq_zero_iff, isZero_iff_unitsOf_eq_zero, isZero_iff_unitsOf_eq_zero]

theorem fpFma_of_zero (mode : Mode) (ha : isFinite F a = true) (hb : isFinite F b = true) (hc : isFinite F c = true)
    {p q : ℚ} (hp : p = (if np then -1 else 1) * (valueQ F a * valueQ F b))
    (hq : q = (if nc then -1 else 1) * valueQ F c) (h : p + q = 0) :
    fpFma F a b c np nc mode =
      (signedZero F (if p = 0 ∧ (signOf F a ^^ signOf F b ^^ np) = (signOf F c ^^ nc) then signOf F c ^^ nc
        else decide (mode = .rdn)), 0) := by
  have hsum := fused_eq_div (a := a) (b := b) (c := c) (congrArg₂ (· + ·) hp hq)
  have hzero : p = 0 → isZero F c = true := fun hp0 => by
    have hsign : (if nc then -1 else 1 : ℚ) ≠ 0 := by cases nc <;> norm_num
    rw [hp0, zero_add, hq, mul_eq_zero_iff_left hsign] at h
    exact valueQ_eq_zero_iff.1 h
  have hcond : ((withSign (signOf F a ^^ signOf F b ^^ np) (unitsOf F a * unitsOf F b) == 0) && isZero F c &&
        ((signOf F a ^^ signOf F b ^^ np) == (signOf F c ^^ nc))) = true ↔
      p = 0 ∧ (signOf F a ^^ signOf F b ^^ np) = (signOf F c ^^ nc) := by
    rw [Bool.and_eq_true, Bool.and_eq_true, product_eq_zero_iff, ← hp, beq_iff_eq]
    exact ⟨fun ⟨⟨hp0, _⟩, hs⟩ => ⟨hp0, hs⟩, fun ⟨hp0, hs⟩ => ⟨⟨hp0, hzero hp0⟩, hs⟩⟩
  rw [fpFma_of_isFinite mode ha hb hc, if_pos ((eq_zero_iff_of_eq_div (Nat.two_pow_pos _) hsum).1 h)]
  simp only [hcond]
  split_ifs with hsame
  · rw [hsame.2]
    rfl
  · rfl

end FusedZero

/-- Settles O49: operation by operation. -/
theorem signsOfExactZeros : Obligations.SignsOfExactZeros := by
  intro F a b c np nc mode ha hb hc
  exact ⟨fpMul_of_zero mode ha hb, fpDiv_of_zero mode ha hb, fpAdd_of_zero mode ha hb, fpSub_of_zero mode ha hb,
    fun hz => fpSqrt_of_isZero mode (valueQ_eq_zero_iff.1 hz), fpFma_of_zero mode ha hb hc rfl rfl⟩

end Sys2Proof.Machine

namespace Sys2Proof.Machine

/-! ### Classes that exclude a NaN -/

section Class
variable {F : Fmt} {x : BitVec F.width}

theorem isFinite_of_not (hn : isNaN F x = false) (hi : isInf F x = false) : isFinite F x = true :=
  isFinite_iff.2 (expOf_lt_expOnes hn hi).ne

end Class

/-! ### The outcomes of an arithmetic operation (42_fp_numerics.md rules R144, R157, R158) -/

/-- A result that is a number, raised without NV, and with DZ exactly under the condition. -/
structure IsNumber (F : Fmt) (dz : Prop) (r : FpResult F) : Prop where
  number : isNaN F r.1 = false
  nv : ¬ hasFlag r.2 FpFlag.nv
  dz : hasFlag r.2 FpFlag.dz ↔ dz

/-- An operation is invalid, else a quiet NaN goes through it, else it gives a number. -/
structure Outcome (F : Fmt) (invalidCond nan dz : Prop) (r : FpResult F) : Prop where
  invalid : invalidCond → r = (canonicalNaN F, FpFlag.nv)
  quiet : ¬ invalidCond → nan → r = (canonicalNaN F, 0)
  regular : ¬ invalidCond → ¬ nan → IsNumber F dz r
  dz_regular : dz → ¬ invalidCond ∧ ¬ nan

section Outcome
variable {F : Fmt} {invalidCond nan dz : Prop} {r : FpResult F}

theorem hasFlag_nv_nv : hasFlag FpFlag.nv FpFlag.nv := rfl
theorem hasFlag_dz_dz : hasFlag FpFlag.dz FpFlag.dz := rfl
theorem not_hasFlag_nv_dz : ¬ hasFlag FpFlag.nv FpFlag.dz := by unfold hasFlag; decide
theorem not_hasFlag_dz_nv : ¬ hasFlag FpFlag.dz FpFlag.nv := by unfold hasFlag; decide
theorem not_hasFlag_zero_nv : ¬ hasFlag 0 FpFlag.nv := by unfold hasFlag; decide
theorem not_hasFlag_zero_dz : ¬ hasFlag 0 FpFlag.dz := by unfold hasFlag; decide

theorem isNumber_exact {x : BitVec F.width} (h : isNaN F x = false) : IsNumber F False (exact F x) :=
  ⟨h, not_hasFlag_zero_nv, iff_false_intro not_hasFlag_zero_dz⟩

theorem isNumber_roundF {neg : Bool} {a : Mag} {mode : Mode} (ha : a.positive) :
    IsNumber F False (roundF F neg a mode) :=
  ⟨isNaN_roundF ha, not_hasFlag_nv_roundF ha, iff_false_intro (not_hasFlag_dz_roundF ha)⟩

theorem isNumber_roundRatio {v : Int} {d : Nat} {mode : Mode} (hv : v ≠ 0) (hd : 0 < d) :
    IsNumber F False (roundRatio F v d mode) :=
  isNumber_roundF ⟨Int.natAbs_pos.2 hv, hd⟩

theorem IsNumber.of_not_dz (h : IsNumber F False r) (hdz : ¬ dz) : IsNumber F dz r :=
  ⟨h.number, h.nv, iff_of_false h.dz.1 hdz⟩

theorem isNaN_signedZero (F : Fmt) (neg : Bool) : isNaN F (signedZero F neg) = false :=
  isNaN_of_isFinite (isFinite_of_isZero (isZero_signedZero F neg))

theorem isNaN_infinity (F : Fmt) (neg : Bool) : isNaN F (infinity F neg) = false :=
  isNaN_of_isInf (isInf_infinity F neg)

theorem isNumber_cancelledZero (F : Fmt) (mode : Mode) : IsNumber F False (cancelledZero F mode) :=
  isNumber_exact (isNaN_signedZero F _)

/-- The outcome on operands that are no NaNs. -/
structure NumberOutcome (F : Fmt) (invalidCond dz : Prop) (r : FpResult F) : Prop where
  invalid : invalidCond → r = (canonicalNaN F, FpFlag.nv)
  regular : ¬ invalidCond → IsNumber F dz r

theorem NumberOutcome.of_invalid (h : invalidCond) : NumberOutcome F invalidCond dz (Machine.invalid F) :=
  ⟨fun _ => rfl, fun hn => absurd h hn⟩

theorem NumberOutcome.of_number (h : ¬ invalidCond) (hr : IsNumber F dz r) : NumberOutcome F invalidCond dz r :=
  ⟨fun hi => absurd hi h, fun _ => hr⟩

/-- Every operation first asks for operands that make it invalid, then for a NaN. -/
theorem Outcome.of_ladder {s n : Bool} {signalling nan invalidCond dz : Prop} {rest : FpResult F} (hs : s = true ↔ signalling)
    (hn : n = true ↔ nan) (hnan : invalidCond → ¬ nan) (hdz : dz → ¬ (signalling ∨ invalidCond) ∧ ¬ nan)
    (hrest : ¬ nan → NumberOutcome F invalidCond dz rest) :
    Outcome F (signalling ∨ invalidCond) nan dz
      (if s then Machine.invalid F else if n then exact F (canonicalNaN F) else rest) := by
  rw [← hs, ← hn] at *
  cases s with
  | true => exact ⟨fun _ => rfl, fun h => absurd (.inl rfl) h, fun h => absurd (.inl rfl) h, hdz⟩
  | false =>
    simp only [Bool.false_eq_true, false_or, if_false] at *
    cases n with
    | true => exact ⟨fun h => absurd rfl (hnan h), fun _ _ => rfl, fun _ h => absurd rfl h, hdz⟩
    | false =>
      obtain ⟨hinvalid, hregular⟩ := hrest Bool.false_ne_true
      exact ⟨hinvalid, fun _ h => absurd h Bool.false_ne_true, fun h _ => hregular h, hdz⟩

variable (h : Outcome F invalidCond nan dz r)
include h

theorem Outcome.congr {invalidCond' : Prop} (hiff : invalidCond ↔ invalidCond') : Outcome F invalidCond' nan dz r :=
  propext hiff ▸ h

theorem Outcome.nv_iff : hasFlag r.2 FpFlag.nv ↔ invalidCond := by
  by_cases hi : invalidCond
  · rw [h.invalid hi]
    exact iff_of_true hasFlag_nv_nv hi
  · refine iff_of_false ?_ hi
    by_cases hn : nan
    · rw [h.quiet hi hn]
      exact not_hasFlag_zero_nv
    · exact (h.regular hi hn).nv

theorem Outcome.dz_iff : hasFlag r.2 FpFlag.dz ↔ dz := by
  by_cases hi : invalidCond
  · rw [h.invalid hi]
    exact iff_of_false not_hasFlag_nv_dz fun hdz => (h.dz_regular hdz).1 hi
  · by_cases hn : nan
    · rw [h.quiet hi hn]
      exact iff_of_false not_hasFlag_zero_dz fun hdz => (h.dz_regular hdz).2 hn
    · exact (h.regular hi hn).dz

/-- A NaN result is the canonical one, and NV comes with it alone. -/
theorem Outcome.canonical :
    (isNaN F r.1 = true → r.1 = canonicalNaN F) ∧ (hasFlag r.2 FpFlag.nv → r = (canonicalNaN F, FpFlag.nv)) := by
  refine ⟨fun hnan => ?_, fun hnv => h.invalid (h.nv_iff.1 hnv)⟩
  by_cases hi : invalidCond
  · rw [h.invalid hi]
  · by_cases hn : nan
    · rw [h.quiet hi hn]
    · simp [(h.regular hi hn).number] at hnan

end Outcome

/-! ### The operations -/

section Operations
variable (F : Fmt) (a b c : BitVec F.width) (np nc : Bool) (mode : Mode)

/-- An operand is signalling. -/
def AnySNaN : Prop := isSNaN F a = true ∨ isSNaN F b = true

/-- An operand is a NaN. -/
def AnyNaN : Prop := isNaN F a = true ∨ isNaN F b = true

/-- One operand is a zero and the other infinite. -/
def ZeroTimesInf : Prop := (isZero F a = true ∧ isInf F b = true) ∨ (isInf F a = true ∧ isZero F b = true)

/-- The operands are infinities of opposite signs. -/
def OppositeInf : Prop := isInf F a = true ∧ isInf F b = true ∧ signOf F a ≠ signOf F b

/-- The operands are both infinite, or both zeros. -/
def NoQuotient : Prop := (isInf F a = true ∧ isInf F b = true) ∨ (isZero F a = true ∧ isZero F b = true)

/-- A finite nonzero word is divided by a zero. -/
def DividesByZero : Prop := isFinite F a = true ∧ isZero F a = false ∧ isZero F b = true

/-- The infinities of a product and of an addend, with their signs. -/
def OppositeFused : Prop :=
  (isInf F a = true ∨ isInf F b = true) ∧ isInf F c = true ∧ (signOf F a ^^ signOf F b ^^ np) ≠ (signOf F c ^^ nc)

/-- The operands a fused multiply-add is invalid for. -/
def InvalidFused : Prop :=
  ZeroTimesInf F a b ∨ AnySNaN F a b ∨ isSNaN F c = true ∨ (¬ AnyNaN F a b ∧ OppositeFused F a b c np nc)

variable {F a b c}

theorem anySNaN_iff : (isSNaN F a || isSNaN F b) = true ↔ AnySNaN F a b := by
  rw [Bool.or_eq_true]
  rfl

theorem anyNaN_iff : (isNaN F a || isNaN F b) = true ↔ AnyNaN F a b := by
  rw [Bool.or_eq_true]
  rfl

theorem zeroTimesInf_iff :
    ((isInf F a && isZero F b) || (isZero F a && isInf F b)) = true ↔ ZeroTimesInf F a b := by
  rw [Bool.or_eq_true, Bool.and_eq_true, Bool.and_eq_true]
  exact Or.comm

theorem oppositeFused_iff :
    ((isInf F a || isInf F b) && isInf F c && ((signOf F a ^^ signOf F b ^^ np) != (signOf F c ^^ nc))) = true ↔
      OppositeFused F a b c np nc := by
  rw [Bool.and_eq_true, Bool.and_eq_true, Bool.or_eq_true, bne_iff_ne, and_assoc]
  rfl

theorem not_anyNaN_iff : ¬ AnyNaN F a b ↔ isNaN F a = false ∧ isNaN F b = false := by simp [AnyNaN]

theorem OppositeInf.not_anyNaN (h : OppositeInf F a b) : ¬ AnyNaN F a b :=
  not_anyNaN_iff.2 ⟨isNaN_of_isInf h.1, isNaN_of_isInf h.2.1⟩

theorem isNaN_of_isZero {x : BitVec F.width} (h : isZero F x = true) : isNaN F x = false :=
  isNaN_of_isFinite (isFinite_of_isZero h)

theorem ZeroTimesInf.not_anyNaN (h : ZeroTimesInf F a b) : ¬ AnyNaN F a b :=
  not_anyNaN_iff.2 <| h.elim (fun h => ⟨isNaN_of_isZero h.1, isNaN_of_isInf h.2⟩)
    fun h => ⟨isNaN_of_isInf h.1, isNaN_of_isZero h.2⟩

theorem NoQuotient.not_anyNaN (h : NoQuotient F a b) : ¬ AnyNaN F a b :=
  not_anyNaN_iff.2 <| h.elim (fun h => ⟨isNaN_of_isInf h.1, isNaN_of_isInf h.2⟩)
    fun h => ⟨isNaN_of_isZero h.1, isNaN_of_isZero h.2⟩

theorem DividesByZero.not_anyNaN (h : DividesByZero F a b) : ¬ AnyNaN F a b :=
  not_anyNaN_iff.2 ⟨isNaN_of_isFinite h.1, isNaN_of_isZero h.2.2⟩

theorem AnySNaN.anyNaN (h : AnySNaN F a b) : AnyNaN F a b := h.imp isNaN_of_isSNaN isNaN_of_isSNaN

theorem outcome_fpAdd : Outcome F (AnySNaN F a b ∨ OppositeInf F a b) (AnyNaN F a b) False (fpAdd F a b mode) := by
  refine .of_ladder anySNaN_iff anyNaN_iff OppositeInf.not_anyNaN False.elim fun hnan => ?_
  obtain ⟨hna, hnb⟩ := not_anyNaN_iff.1 hnan
  split_ifs with hinf hsign hia hib hsum hzero
  · exact .of_number (fun h => h.2.2 hsign) (isNumber_exact hna)
  · rw [Bool.and_eq_true] at hinf
    exact .of_invalid ⟨hinf.1, hinf.2, hsign⟩
  all_goals
    have hvalid : ¬ OppositeInf F a b := fun h => hinf (by rw [h.1, h.2.1]; rfl)
    refine .of_number hvalid ?_
  · exact isNumber_exact hna
  · exact isNumber_exact hnb
  · exact isNumber_exact hna
  · exact isNumber_cancelledZero F mode
  · exact isNumber_roundRatio hsum (Nat.two_pow_pos _)

theorem outcome_fpMul : Outcome F (AnySNaN F a b ∨ ZeroTimesInf F a b) (AnyNaN F a b) False (fpMul F a b mode) := by
  refine .of_ladder anySNaN_iff anyNaN_iff ZeroTimesInf.not_anyNaN False.elim fun hnan => ?_
  split_ifs with hzti hinf hzero
  · exact .of_invalid (zeroTimesInf_iff.1 hzti)
  all_goals refine .of_number (mt zeroTimesInf_iff.2 hzti) ?_
  · exact isNumber_exact (isNaN_infinity F _)
  · exact isNumber_exact (isNaN_signedZero F _)
  · exact isNumber_roundRatio hzero (Nat.two_pow_pos _)

theorem not_anySNaN_of_not_anyNaN (h : ¬ AnyNaN F a b) : ¬ AnySNaN F a b := mt AnySNaN.anyNaN h

/-- A finite nonzero word and a zero make no invalid quotient. -/
theorem DividesByZero.not_noQuotient (h : DividesByZero F a b) : ¬ NoQuotient F a b := by
  obtain ⟨hfin, hzero, -⟩ := h
  rintro (⟨hinf, -⟩ | ⟨hz, -⟩)
  · simp [isInf_of_isFinite hfin] at hinf
  · simp [hzero] at hz

theorem isNumber_dz (h : DividesByZero F a b) (neg : Bool) :
    IsNumber F (DividesByZero F a b) (infinity F neg, FpFlag.dz) :=
  ⟨isNaN_infinity F neg, not_hasFlag_dz_nv, iff_of_true hasFlag_dz_dz h⟩

theorem outcome_fpDiv :
    Outcome F (AnySNaN F a b ∨ NoQuotient F a b) (AnyNaN F a b) (DividesByZero F a b) (fpDiv F a b mode) := by
  refine .of_ladder anySNaN_iff anyNaN_iff NoQuotient.not_anyNaN
    (fun h => ⟨not_or.2 ⟨not_anySNaN_of_not_anyNaN h.not_anyNaN, h.not_noQuotient⟩, h.not_anyNaN⟩) fun hnan => ?_
  obtain ⟨hna, hnb⟩ := not_anyNaN_iff.1 hnan
  split_ifs with hinf hzero hia hib hzb hza
  · exact .of_invalid (.inl (by simpa using hinf))
  · exact .of_invalid (.inr (by simpa using hzero))
  all_goals
    have hvalid : ¬ NoQuotient F a b := not_or.2 ⟨by simpa using hinf, by simpa using hzero⟩
    refine .of_number hvalid ?_
  · refine (isNumber_exact (isNaN_infinity F _)).of_not_dz fun h => ?_
    exact absurd h.1 (by simp [isFinite_of_isInf hia])
  · refine (isNumber_exact (isNaN_signedZero F _)).of_not_dz fun h => ?_
    exact absurd h.2.2 (by simp [isZero_of_isInf hib])
  · refine isNumber_dz ⟨isFinite_of_not hna (eq_false_of_ne_true hia), eq_false_of_ne_true fun hza => ?_, hzb⟩ _
    exact hvalid (.inr ⟨hza, hzb⟩)
  · exact (isNumber_exact (isNaN_signedZero F _)).of_not_dz fun h => hzb h.2.2
  · have hpos : Mag.positive (.ratio (unitsOf F a) (unitsOf F b)) :=
      ⟨unitsOf_pos (eq_false_of_ne_true hza), unitsOf_pos (eq_false_of_ne_true hzb)⟩
    exact (isNumber_roundF hpos).of_not_dz fun h => hzb h.2.2

theorem outcome_fpSqrt :
    Outcome F (isSNaN F a = true ∨ (isNaN F a = false ∧ isZero F a = false ∧ signOf F a = true)) (isNaN F a = true) False
      (fpSqrt F a mode) := by
  refine .of_ladder Iff.rfl Iff.rfl (fun h => by simp [h.1]) False.elim fun hnan => ?_
  rw [Bool.not_eq_true] at hnan
  split_ifs with hzero hsign hinf
  · exact .of_number (fun h => by simp [hzero] at h) (isNumber_exact hnan)
  · exact .of_invalid ⟨hnan, eq_false_of_ne_true hzero, hsign⟩
  all_goals refine .of_number (fun h => hsign h.2.2) ?_
  · exact isNumber_exact hnan
  · exact isNumber_roundF ⟨unitsOf_pos (eq_false_of_ne_true hzero), Nat.two_pow_pos _⟩

theorem OppositeFused.not_isNaN (h : OppositeFused F a b c np nc) : isNaN F c = false := isNaN_of_isInf h.2.1

/-- Where no zero meets an infinity, the ladder goes on as for the other operations. -/
theorem outcome_fpFma_of_not_zeroTimesInf (hzti : ¬ ZeroTimesInf F a b) :
    Outcome F ((AnySNaN F a b ∨ isSNaN F c = true) ∨ (¬ AnyNaN F a b ∧ OppositeFused F a b c np nc))
      (AnyNaN F a b ∨ isNaN F c = true) False (fpFma F a b c np nc mode) := by
  unfold fpFma
  simp only [mt zeroTimesInf_iff.1 hzti, Bool.false_eq_true, if_false]
  refine .of_ladder (by rw [Bool.or_eq_true, anySNaN_iff]) (by rw [Bool.or_eq_true, anyNaN_iff])
    (fun h => not_or.2 ⟨h.1, by simp [h.2.not_isNaN]⟩) False.elim fun hnan => ?_
  split_ifs with hopp hinf hic hsum hzero
  · exact .of_invalid ⟨fun h => hnan (.inl h), (oppositeFused_iff np nc).1 hopp⟩
  all_goals
    have hvalid : ¬ (¬ AnyNaN F a b ∧ OppositeFused F a b c np nc) := fun h =>
      hopp ((oppositeFused_iff np nc).2 h.2)
    refine .of_number hvalid ?_
  · exact isNumber_exact (isNaN_infinity F _)
  · exact isNumber_exact (isNaN_infinity F _)
  · exact isNumber_exact (isNaN_signedZero F _)
  · exact isNumber_cancelledZero F mode
  · exact isNumber_roundRatio hsum (Nat.two_pow_pos _)

theorem outcome_fpFma :
    Outcome F (InvalidFused F a b c np nc) (AnyNaN F a b ∨ isNaN F c = true) False (fpFma F a b c np nc mode) := by
  by_cases hzti : ZeroTimesInf F a b
  · have hinvalid : fpFma F a b c np nc mode = (canonicalNaN F, FpFlag.nv) :=
      if_pos (zeroTimesInf_iff.2 hzti)
    exact ⟨fun _ => hinvalid, fun h => absurd (.inl hzti) h, fun h => absurd (.inl hzti) h, False.elim⟩
  · refine (outcome_fpFma_of_not_zeroTimesInf np nc mode hzti).congr ?_
    rw [InvalidFused, or_iff_right hzti, or_assoc]

end Operations

end Sys2Proof.Machine

namespace Sys2Proof.Machine

/-! ### Operations on infinities (43_fp_arith.md rules R180 to R184) -/

section Infinite
variable {F : Fmt} {a b c : BitVec F.width} (np nc : Bool) (mode : Mode)

/-- Subtraction is addition of the negated word, so its outcome is that of the sum. -/
theorem outcome_fpSub :
    Outcome F (AnySNaN F a b ∨ (isInf F a = true ∧ isInf F b = true ∧ signOf F a = signOf F b)) (AnyNaN F a b) False
      (fpSub F a b mode) := by
  have h := outcome_fpAdd (a := a) (b := negate F b) mode
  simpa only [AnySNaN, AnyNaN, OppositeInf, isSNaN_negate, isNaN_negate, isInf_negate, signOf_negate, ne_eq, Bool.eq_not,
    not_not, fpSub] using h

/-- No NaN, so neither of the first two rungs. -/
theorem fpAdd_of_numbers (ha : isNaN F a = false) (hb : isNaN F b = false) :
    fpAdd F a b mode =
      if isInf F a && isInf F b then
        if signOf F a = signOf F b then exact F a else invalid F
      else if isInf F a then exact F a
      else if isInf F b then exact F b
      else if valueOf F a + valueOf F b = 0 then
        if isZero F a && isZero F b && (signOf F a == signOf F b) then exact F a else cancelledZero F mode
      else roundRatio F (valueOf F a + valueOf F b) (2 ^ F.scale) mode := by
  simp [fpAdd, ha, hb, isSNaN_of_not_isNaN]

theorem fpAdd_of_isInf_left (ha : isInf F a = true) (hb : isNaN F b = false)
    (hs : isInf F b = true → signOf F a = signOf F b) : fpAdd F a b mode = (a, 0) := by
  rw [fpAdd_of_numbers mode (isNaN_of_isInf ha) hb, ha]
  cases hib : isInf F b with
  | false => rfl
  | true => exact if_pos (hs hib)

theorem fpAdd_of_isInf_right (ha : isFinite F a = true) (hb : isInf F b = true) : fpAdd F a b mode = (b, 0) := by
  rw [fpAdd_of_numbers mode (isNaN_of_isFinite ha) (isNaN_of_isInf hb), isInf_of_isFinite ha, hb]
  rfl

theorem fpSub_of_isInf_left (ha : isInf F a = true) (hb : isNaN F b = false)
    (hs : isInf F b = true → signOf F a ≠ signOf F b) : fpSub F a b mode = (a, 0) := by
  refine fpAdd_of_isInf_left mode ha ((isNaN_negate F b).trans hb) fun hib => ?_
  rw [signOf_negate, Bool.eq_not]
  exact hs ((isInf_negate F b).symm.trans hib)

theorem fpSub_of_isInf_right (ha : isFinite F a = true) (hb : isInf F b = true) :
    fpSub F a b mode = (infinity F (!signOf F b), 0) := by
  have hneg : isInf F (negate F b) = true := (isInf_negate F b).trans hb
  rw [fpSub, fpAdd_of_isInf_right mode ha hneg, ← signOf_negate, ← eq_infinity hneg]

theorem fpMul_of_isInf (hnan : ¬ AnyNaN F a b) (hinf : isInf F a = true ∨ isInf F b = true)
    (hzti : ¬ ZeroTimesInf F a b) : fpMul F a b mode = (infinity F (signOf F a ^^ signOf F b), 0) := by
  rw [fpMul, if_neg (mt anySNaN_iff.1 (not_anySNaN_of_not_anyNaN hnan)), if_neg (mt anyNaN_iff.1 hnan),
    if_neg (mt zeroTimesInf_iff.1 hzti), if_pos ((Bool.or_eq_true _ _).mpr hinf)]
  rfl

theorem fpDiv_of_numbers (ha : isNaN F a = false) (hb : isNaN F b = false) (hvalid : ¬ NoQuotient F a b) :
    fpDiv F a b mode =
      if isInf F a then exact F (infinity F (signOf F a ^^ signOf F b))
      else if isInf F b then exact F (signedZero F (signOf F a ^^ signOf F b))
      else if isZero F b then (infinity F (signOf F a ^^ signOf F b), FpFlag.dz)
      else if isZero F a then exact F (signedZero F (signOf F a ^^ signOf F b))
      else roundF F (signOf F a ^^ signOf F b) (.ratio (unitsOf F a) (unitsOf F b)) mode := by
  have hnan := not_anyNaN_iff.2 ⟨ha, hb⟩
  obtain ⟨hinf, hzero⟩ := not_or.1 hvalid
  rw [← Bool.and_eq_true] at hinf hzero
  rw [fpDiv, if_neg (mt anySNaN_iff.1 (not_anySNaN_of_not_anyNaN hnan)), if_neg (mt anyNaN_iff.1 hnan), if_neg hinf,
    if_neg hzero]

theorem fpDiv_of_isInf_left (ha : isInf F a = true) (hb : isFinite F b = true) :
    fpDiv F a b mode = (infinity F (signOf F a ^^ signOf F b), 0) := by
  have hvalid : ¬ NoQuotient F a b := by simp [NoQuotient, isInf_of_isFinite hb, isZero_of_isInf ha]
  rw [fpDiv_of_numbers mode (isNaN_of_isInf ha) (isNaN_of_isFinite hb) hvalid, if_pos ha]
  rfl

theorem fpDiv_of_isInf_right (ha : isFinite F a = true) (hb : isInf F b = true) :
    fpDiv F a b mode = (signedZero F (signOf F a ^^ signOf F b), 0) := by
  have hvalid : ¬ NoQuotient F a b := by simp [NoQuotient, isInf_of_isFinite ha, isZero_of_isInf hb]
  rw [fpDiv_of_numbers mode (isNaN_of_isFinite ha) (isNaN_of_isInf hb) hvalid,
    if_neg (by simp [isInf_of_isFinite ha]), if_pos hb]
  rfl

theorem fpDiv_of_dividesByZero (h : DividesByZero F a b) :
    fpDiv F a b mode = (infinity F (signOf F a ^^ signOf F b), FpFlag.dz) := by
  have hvalid := h.not_noQuotient
  obtain ⟨hfin, -, hzb⟩ := h
  rw [fpDiv_of_numbers mode (isNaN_of_isFinite hfin) (isNaN_of_isZero hzb) hvalid,
    if_neg (by simp [isInf_of_isFinite hfin]), if_neg (by simp [isInf_of_isFinite (isFinite_of_isZero hzb)]), if_pos hzb]

theorem fpSqrt_of_isInf (ha : isInf F a = true) (hs : signOf F a = false) : fpSqrt F a mode = (a, 0) := by
  simp [fpSqrt, isSNaN_of_not_isNaN (isNaN_of_isInf ha), isNaN_of_isInf ha, isZero_of_isInf ha, hs, ha, exact_eq]

theorem not_signalling_of_numbers (hnan : ¬ AnyNaN F a b) (hc : isNaN F c = false) :
    ¬ (isSNaN F a || isSNaN F b || isSNaN F c) = true := by
  obtain ⟨ha, hb⟩ := not_anyNaN_iff.1 hnan
  simp [isSNaN_of_not_isNaN, ha, hb, hc]

theorem not_nan_of_numbers (hnan : ¬ AnyNaN F a b) (hc : isNaN F c = false) :
    ¬ (isNaN F a || isNaN F b || isNaN F c) = true := by
  obtain ⟨ha, hb⟩ := not_anyNaN_iff.1 hnan
  simp [ha, hb, hc]

theorem fpFma_of_isInf_product (hnan : ¬ AnyNaN F a b) (hc : isNaN F c = false)
    (hinf : isInf F a = true ∨ isInf F b = true) (hzti : ¬ ZeroTimesInf F a b)
    (hs : isInf F c = true → (signOf F a ^^ signOf F b ^^ np) = (signOf F c ^^ nc)) :
    fpFma F a b c np nc mode = (infinity F (signOf F a ^^ signOf F b ^^ np), 0) := by
  have hvalid : ¬ OppositeFused F a b c np nc := fun h => h.2.2 (hs h.2.1)
  rw [fpFma, if_neg (mt zeroTimesInf_iff.1 hzti), if_neg (not_signalling_of_numbers hnan hc),
    if_neg (not_nan_of_numbers hnan hc), if_neg (mt (oppositeFused_iff np nc).1 hvalid),
    if_pos ((Bool.or_eq_true _ _).mpr hinf)]
  rfl

theorem fpFma_of_isInf_addend (ha : isFinite F a = true) (hb : isFinite F b = true) (hc : isInf F c = true) :
    fpFma F a b c np nc mode = (infinity F (signOf F c ^^ nc), 0) := by
  have hia := isInf_of_isFinite ha
  have hib := isInf_of_isFinite hb
  have hnan : ¬ AnyNaN F a b := not_anyNaN_iff.2 ⟨isNaN_of_isFinite ha, isNaN_of_isFinite hb⟩
  rw [fpFma, if_neg (by simp [hia, hib]), if_neg (not_signalling_of_numbers hnan (isNaN_of_isInf hc)),
    if_neg (not_nan_of_numbers hnan (isNaN_of_isInf hc)), if_neg (by simp [hia, hib]), if_neg (by simp [hia, hib]),
    if_pos hc]
  rfl

end Infinite

/-- Settles O47: each operation's invalid operands are those of its first rungs, DZ is the division's alone, and the rungs
of the infinities follow. -/
theorem invalidAndDivideByZero : Obligations.InvalidAndDivideByZero := by
  intro F a b c np nc mode
  have hdiv := outcome_fpDiv (a := a) (b := b) mode
  refine ⟨(outcome_fpAdd mode).nv_iff, (outcome_fpSub mode).nv_iff, (outcome_fpMul mode).nv_iff, hdiv.nv_iff,
    (outcome_fpSqrt mode).nv_iff, (outcome_fpFma np nc mode).nv_iff, hdiv.dz_iff,
    fun hdz => fpDiv_of_dividesByZero mode (hdiv.dz_iff.1 hdz), (outcome_fpAdd mode).dz_iff.1,
    (outcome_fpSub mode).dz_iff.1, (outcome_fpMul mode).dz_iff.1, (outcome_fpSqrt mode).dz_iff.1,
    (outcome_fpFma np nc mode).dz_iff.1, fun ha hb => ?_, fun ha hb => ?_, fun ha hb => ?_, fpMul_of_isInf mode,
    fpSqrt_of_isInf mode, fpFma_of_isInf_product np nc mode, fpFma_of_isInf_addend np nc mode⟩
  · have hinf (p : Prop) (h : isInf F b = true) : p := by simp [isInf_of_isFinite hb] at h
    exact ⟨fpAdd_of_isInf_left mode ha (isNaN_of_isFinite hb) (hinf _),
      fpSub_of_isInf_left mode ha (isNaN_of_isFinite hb) (hinf _), fpDiv_of_isInf_left mode ha hb⟩
  · exact ⟨fpAdd_of_isInf_right mode ha hb, fpSub_of_isInf_right mode ha hb, fpDiv_of_isInf_right mode ha hb⟩
  · exact ⟨fun hs => fpAdd_of_isInf_left mode ha (isNaN_of_isInf hb) fun _ => hs,
      fun hs => fpSub_of_isInf_left mode ha (isNaN_of_isInf hb) fun _ => hs⟩

end Sys2Proof.Machine

namespace Sys2Proof.Machine

/-! ### NaN operands (42_fp_numerics.md rules R144, R157) -/

/-- A NaN that makes no operand signalling goes through, since the other invalid operands are no NaNs. -/
theorem Outcome.of_not_signalling {F : Fmt} {signalling invalidCond nan dz : Prop} {r : FpResult F}
    (h : Outcome F (signalling ∨ invalidCond) nan dz r) (hs : ¬ signalling) (hi : invalidCond → ¬ nan) (hn : nan) :
    r = (canonicalNaN F, 0) :=
  h.quiet (not_or.2 ⟨hs, fun hinvalid => hi hinvalid hn⟩) hn

section Quiet
variable {F : Fmt} {a b c : BitVec F.width} (np nc : Bool) (mode : Mode)

theorem quiet_of_isQNaN (ha : isSNaN F a = false) (hb : isSNaN F b = false)
    (hq : isQNaN F a = true ∨ isQNaN F b = true) :
    fpAdd F a b mode = (canonicalNaN F, 0) ∧ fpSub F a b mode = (canonicalNaN F, 0) ∧
      fpMul F a b mode = (canonicalNaN F, 0) ∧ fpDiv F a b mode = (canonicalNaN F, 0) := by
  have hsnan : ¬ AnySNaN F a b := by simp [AnySNaN, ha, hb]
  have hnan : AnyNaN F a b := hq.imp isNaN_of_isQNaN isNaN_of_isQNaN
  exact ⟨(outcome_fpAdd mode).of_not_signalling hsnan OppositeInf.not_anyNaN hnan,
    (outcome_fpSub mode).of_not_signalling hsnan
      (fun h => not_anyNaN_iff.2 ⟨isNaN_of_isInf h.1, isNaN_of_isInf h.2.1⟩) hnan,
    (outcome_fpMul mode).of_not_signalling hsnan ZeroTimesInf.not_anyNaN hnan,
    (outcome_fpDiv mode).of_not_signalling hsnan NoQuotient.not_anyNaN hnan⟩

theorem fpSqrt_of_isQNaN (hq : isQNaN F a = true) : fpSqrt F a mode = (canonicalNaN F, 0) :=
  (outcome_fpSqrt mode).of_not_signalling (by simp [isSNaN_of_isQNaN hq]) (fun h => by simp [h.1]) (isNaN_of_isQNaN hq)

theorem fpFma_of_isQNaN (ha : isSNaN F a = false) (hb : isSNaN F b = false) (hc : isSNaN F c = false)
    (hq : isQNaN F a = true ∨ isQNaN F b = true ∨ isQNaN F c = true) (hzti : ¬ ZeroTimesInf F a b) :
    fpFma F a b c np nc mode = (canonicalNaN F, 0) := by
  have hsnan : ¬ (AnySNaN F a b ∨ isSNaN F c = true) := by simp [AnySNaN, ha, hb, hc]
  have hnan : AnyNaN F a b ∨ isNaN F c = true :=
    (or_assoc.2 hq).imp (Or.imp isNaN_of_isQNaN isNaN_of_isQNaN) isNaN_of_isQNaN
  exact (outcome_fpFma_of_not_zeroTimesInf np nc mode hzti).of_not_signalling hsnan
    (fun h => not_or.2 ⟨h.1, by simp [h.2.not_isNaN]⟩) hnan

end Quiet

section FormatConversion
variable {Fs : Fmt} (Fd : Fmt) {a : BitVec Fs.width} (mode : Mode)

theorem fpToFp_of_isNaN (h : isNaN Fs a = true) :
    fpToFp Fs Fd a mode = (canonicalNaN Fd, if isSNaN Fs a then FpFlag.nv else 0) := by
  cases hs : isSNaN Fs a with
  | true => exact if_pos hs
  | false => simp [fpToFp, hs, h, exact_eq]

theorem isNaN_fpToFp_of_not_isNaN (h : isNaN Fs a = false) : isNaN Fd (fpToFp Fs Fd a mode).1 = false := by
  cases hi : isInf Fs a with
  | true =>
    rw [fpToFp_of_isInf Fd mode hi]
    exact isNaN_infinity Fd _
  | false =>
    cases hz : isZero Fs a with
    | true =>
      rw [fpToFp_of_isZero Fd mode hz]
      exact isNaN_signedZero Fd _
    | false =>
      have hpos : Mag.positive (.ratio (unitsOf Fs a) (2 ^ Fs.scale)) := ⟨unitsOf_pos hz, Nat.two_pow_pos _⟩
      rw [fpToFp_of_isFinite Fd mode (isFinite_of_not h hi) hz]
      exact isNaN_roundF hpos

theorem isNaN_fpToFp_iff : isNaN Fd (fpToFp Fs Fd a mode).1 = true ↔ isNaN Fs a = true := by
  cases h : isNaN Fs a with
  | true =>
    rw [fpToFp_of_isNaN Fd mode h]
    exact iff_of_true (isNaN_of_isQNaN (isQNaN_canonicalNaN Fd)) rfl
  | false => simp [isNaN_fpToFp_of_not_isNaN Fd mode h]

end FormatConversion

/-- Settles O48: each operation is invalid, or gives a quiet NaN for a NaN, or a number. -/
theorem naNResultsAreCanonical : Obligations.NaNResultsAreCanonical := by
  refine ⟨fun F a b c np nc mode => ?_, fun F a b c np nc mode => ?_,
    fun Fs Fd a mode => ⟨isNaN_fpToFp_iff Fd mode, fpToFp_of_isNaN Fd mode⟩, rfl, rfl⟩
  · simp only [List.forall_mem_cons]
    exact ⟨(outcome_fpAdd mode).canonical, (outcome_fpSub mode).canonical, (outcome_fpMul mode).canonical,
      (outcome_fpDiv mode).canonical, (outcome_fpSqrt mode).canonical, (outcome_fpFma np nc mode).canonical,
      List.forall_mem_nil _⟩
  · exact ⟨quiet_of_isQNaN mode, fpSqrt_of_isQNaN mode, fun ha hb hc hq h₁ h₂ =>
      fpFma_of_isQNaN np nc mode ha hb hc hq (not_or.2 ⟨h₂, h₁⟩)⟩

end Sys2Proof.Machine
